-- ==== Sys2Proof/Word.lean ====
section
/-! DEFINITION. The word types of the HF38: the 32-bit line-bus word and the narrower fields the manual names.
Rules of spec/ are cited as R<n>. -/

namespace Sys2Proof

/-- A line-bus word; row indexes, strike rows and the wrapping counters have its width (R17, R22, R120). -/
abbrev Word := BitVec 32

/-- One byte lane of a word. -/
abbrev Byte := BitVec 8

/-- One value per beam 0 to 383: bit `b` is beam `b` (11.1, 11.2). -/
abbrev Beams := BitVec 384

/-- The four byte enables of a beat; bit `l` is lane `l` (R165). -/
abbrev Lanes := BitVec 4

/-- Hide numbers, lot ids, sequence numbers and command tags. -/
abbrev Half := BitVec 16

end Sys2Proof
end

