-- ==== Sys2Proof/Config.lean ====
section
/-! DEFINITION. What the silicon fixes, and the free values: choices the manual leaves open. Each is opaque: nothing can
compute it, so whatever is proved holds for every value. -/

namespace Sys2Proof

/-- Silicon revision in bits 31:24 of the identification word (11.3): a constant the manual does not give. Log entry 10. -/
opaque Config.siliconRevision : BitVec 8

/-- Whether a waiting MASKED_BEAMS notice is taken before a waiting RESTART at the end of a pass (R23: either may be).
Log entry 11. -/
opaque Config.noticeFirst : Nat → Bool

/-- Whether the pass-end tests (R89, R181) are made before a RESTART that waits for the same pass end as well as after it.
Log entry 11. -/
opaque Config.testsFirst : Nat → Bool

/-- Whether a row ring that runs past 0xFFFFFF is charged to its base (else to its slot count) (R178). Log entry 12. -/
opaque Config.rowRingPastAtBase : Bool

/-- Whether a record ring that runs past 0xFFFFFF is charged to its base (else to its size) (R178). Log entry 12. -/
opaque Config.recordRingPastAtBase : Bool

/-- Whether NO_STRIKE is the code reported when slot 5 meets it together with another condition in one frame
(R140, R141 do not rank them). Log entry 13. -/
opaque Config.noStrikeFirst : Nat → Bool

end Sys2Proof
end

