-- ==== Sys2Proof/Syntax.lean ====
section
/-! DEFINITION. The commands of the HF38: one constructor of Instr per row of spec/opcode_table.json, in the table's order,
with the row's operands. -/

namespace Sys2Proof

/-- One beat of an upstream transaction: its byte enables and, for a write, its data (9.1). A read's data field is not looked at. -/
structure Beat where
  enables : Lanes
  data : Word
  deriving DecidableEq, Repr

/-- A single access (one beat) or a burst (two to eight beats) as the line bus presents it (9.1). -/
structure Transaction where
  write : Bool
  start : BitVec 24
  beats : List Beat
  deriving DecidableEq, Repr

/-- The two argument words of the setup page (R176). -/
inductive ArgWord where
  | one
  | two
  deriving DecidableEq, Repr

/-- A command of the block. -/
inductive Instr where
  /-- POWER_ON_RESET: the strap pins as sampled, SPB2 the most significant bit (R167, R183). -/
  | powerOnReset (straps : BitVec 3)
  /-- UPSTREAM_TRANSACTION: `request` is the access the line bus presents, or none when it goes on with the one in progress;
  `pause` is after how many beats the command leaves off, none for all of them (R164; log entry 7). -/
  | upstreamTransaction (request : Option Transaction) (pause : Option Nat)
  /-- POSTED_WORD_WRITE: the arbiter finds a gap (R172). -/
  | postedWordWrite
  /-- PART_WORD_COMPLETE: the part word on the memory port completes (R171). -/
  | partWordComplete
  /-- BEAM_WORD_WRITE: slot, word offset in the slot, byte enables, data, as the decoder hands them over (R2, R3). -/
  | beamWordWrite (slot : BitVec 6) (offset : BitVec 6) (enables : Lanes) (data : Word)
  /-- HEADER_WRITE: slot, byte enables, data of a beat at word offset 0 of a slot (R5). -/
  | headerWrite (slot : BitVec 6) (enables : Lanes) (data : Word)
  /-- ROW_PASS: `units` is how many units of the pass's work the command does, none for the whole pass (R21; log entry 1). -/
  | rowPass (units : Option Nat)
  /-- RECORD_MOVE_OUT (R188). -/
  | recordMoveOut
  /-- RECORD_WORD_HAND_IN (R188). -/
  | recordWordHandIn
  /-- PRODUCER_INDEX_HAND_IN (R188). -/
  | producerIndexHandIn
  /-- STATUS_WORD_POST (R185). -/
  | statusWordPost
  /-- SETUP_WORD_WRITE: word number 0 to 79 in the setup area, byte enables, data (R175). -/
  | setupWordWrite (word : BitVec 7) (enables : Lanes) (data : Word)
  /-- ARGUMENT_WORD_WRITE (R176). -/
  | argumentWordWrite (which : ArgWord) (enables : Lanes) (data : Word)
  /-- CONSUMER_INDEX_WRITE (R186). -/
  | consumerIndexWrite (enables : Lanes) (data : Word)
  /-- STATUS_BLOCK_WRITE: word number 0 to 47 in the status block (R170). -/
  | statusBlockWrite (word : BitVec 6)
  /-- MARK_WINDOW_MATCH: a beat as the decoder checks it against the mark windows: direction, word number in the address
  space (byte address ÷ 4), byte enables, data written or returned (R97). -/
  | markWindowMatch (write : Bool) (wordAddr : BitVec 22) (enables : Lanes) (data : Word)
  /-- COMMIT with its tag (R178). -/
  | commit (tag : Half)
  /-- LOT_NEXT; the lot id is held argument 1 (R87, R176). -/
  | lotNext (tag : Half)
  /-- MANUAL_ENTER; units and band override are the held arguments (R95, R176). -/
  | manualEnter (tag : Half)
  /-- CLEAR_STICKY (R98). -/
  | clearSticky (tag : Half)
  /-- HEAD_RESET (R150). -/
  | headReset (tag : Half)
  /-- PARK_NOW (R158). -/
  | parkNow (tag : Half)
  /-- RESTART (R182). -/
  | restart (tag : Half)
  /-- UNKNOWN_COMMAND: a command word whose code names no command (R177). -/
  | unknownCommand (code : BitVec 4) (tag : Half)
  /-- HALT_TIMER_EXPIRY (R156). -/
  | haltTimerExpiry
  /-- PARK_TIMER_EXPIRY (R157). -/
  | parkTimerExpiry
  /-- FRAME_BOUNDARY (R132, R135). -/
  | frameBoundary
  /-- FRAME_END: the status words that slots 0 to 5 shifted back (R138). -/
  | frameEnd (carriage wheel1 wheel2 wheel3 wheel4 hammer : BitVec 16)
  /-- NO_STRIKE: the strike window runs out (R146). -/
  | noStrike
  deriving DecidableEq, Repr

end Sys2Proof
end

