-- ==== Sys2Proof/WellFormed.lean ====
section
/-! DEFINITION. Which commands a line-bus beat, a link event or an event of the part can spell. -/

namespace Sys2Proof

/-- A single access is one beat, a burst two to eight (9.1). -/
def Transaction.wellFormed (t : Transaction) : Bool :=
  decide (1 ≤ t.beats.length) && decide (t.beats.length ≤ 8)

/-- The command codes 1 to 7 have commands of their own; 0 and 8 to 15 are UNKNOWN (11.2). -/
def isUnknownCode (code : BitVec 4) : Bool :=
  decide (code = 0) || decide (8 ≤ code.toNat)

/-- A command that its operands can spell. -/
def Instr.wellFormed : Instr → Bool
  | .upstreamTransaction request _ => request.all Transaction.wellFormed
  | .setupWordWrite word _ _ => decide (word.toNat < 80)
  | .statusBlockWrite word => decide (word.toNat < 48)
  | .unknownCommand code _ => isUnknownCode code
  | .powerOnReset _ | .postedWordWrite | .partWordComplete | .beamWordWrite _ _ _ _ | .headerWrite _ _ _
  | .rowPass _ | .recordMoveOut | .recordWordHandIn | .producerIndexHandIn | .statusWordPost
  | .argumentWordWrite _ _ _ | .consumerIndexWrite _ _ | .markWindowMatch _ _ _ _ | .commit _ | .lotNext _
  | .manualEnter _ | .clearSticky _ | .headReset _ | .parkNow _ | .restart _ | .haltTimerExpiry
  | .parkTimerExpiry | .frameBoundary | .frameEnd _ _ _ _ _ _ | .noStrike => true

end Sys2Proof
end

