-- ==== Sys2Proof/Decode.lean ====
section
/-! DEFINITION. The command a word spells by the bits of spec/opcode_table.json. The table gives no row any bits (its rows are
operations and events, with no encodings), so no word spells a command. The command word of the setup page (11.2) is decoded
where it is taken, in Machine/Path.lean. -/

namespace Sys2Proof

/-- No row of the table gives bits, so there is nothing to decode. -/
def decodeTableWord (_nbits _w : Nat) : Option Instr := none

end Sys2Proof
end

