-- ==== Sys2Proof/Machine/State.lean ====
section
/-! DEFINITION. The state of the HF38 as plain data: one structure per block (00, Block overview), the memory path beside
them, the queue of waiting commands, and the state after power-on reset. Each field cites the rule that names it. -/

namespace Sys2Proof.Machine

/-! ### Row intake (chapter 1) -/

/-- One beam word of an assembly buffer: four bytes, each with a written flag (1.2). -/
structure BufWord where
  data : Word
  written : Lanes
  deriving DecidableEq, Repr

/-- A HELD assembly buffer: its slot and its 3W beam words (1.2). A FREE buffer is not listed. -/
structure Buffer where
  slot : BitVec 6
  words : List BufWord
  deriving DecidableEq, Repr

/-- A conditioned row as it stands in the row queue (1.5). -/
structure CondRow where
  covered : Beams
  noisy : Beams
  gap : Bool
  trunc : Bool
  deriving DecidableEq, Repr

/-- The state of row intake (chapter 1, opening list). -/
structure Intake where
  /-- The HELD buffers, the older first: the age of R3 is the place in this list. -/
  buffers : List Buffer
  expected : Half
  syncPending : Bool
  lastRow : Beams
  queue : List CondRow
  autoMask : Beams
  stuck : List Nat
  accepted : Word
  synthesized : Word
  dropped : Word
  duplicates : Word
  deriving DecidableEq, Repr

/-! ### Hide tracker (chapter 2) -/

/-- The owner of a segment: a hide-table entry 0 to 15, or the spill account (2.2). -/
inductive Owner where
  | entry (i : Nat)
  | spill
  deriving DecidableEq, Repr

/-- A segment of a row, columns inclusive, with its owner (2.2). -/
structure Seg where
  start : Nat
  stop : Nat
  owner : Owner
  deriving DecidableEq, Repr

/-- A segment whose owner is not settled yet; `united` marks segment 128 of a fragmented row (R25). -/
structure SegPlan where
  start : Nat
  stop : Nat
  united : Bool
  deriving DecidableEq, Repr

/-- An uncovered run between two consecutive segments that the entry `owner` holds both of: a candidate gap (R49). -/
structure Gap where
  start : Nat
  stop : Nat
  owner : Nat
  deriving DecidableEq, Repr

/-- The nine hide flags (2.6). -/
structure HideFlags where
  double : Bool
  spillJoined : Bool
  fragment : Bool
  noisy : Bool
  holeLimit : Bool
  gapRows : Bool
  edge : Bool
  maskedBeams : Bool
  truncated : Bool
  deriving DecidableEq, Repr

/-- A stamp site: site row and site left column (R112). -/
structure Site where
  row : Word
  col : Nat
  deriving DecidableEq, Repr

/-- The fields of an OPEN hide-table entry or an OPEN spill account (2.3). -/
structure Hide where
  number : Half
  lot : Half
  firstRow : Word
  lastRow : Word
  covered : Nat
  filled : Nat
  noise : Nat
  minCol : Nat
  maxCol : Nat
  merges : Nat
  holesFilled : Nat
  holesLarge : Nat
  holesBreached : Nat
  flags : HideFlags
  site : Option Site
  deriving DecidableEq, Repr

/-- Where a row pass stands: the stage of 2.1 and what is left of its list. -/
inductive PassStage where
  /-- Stage 1: the hides still to be closed TRUNCATED (R45). -/
  | truncating (todo : List Owner)
  /-- Stage 2 (R24). -/
  | segmentation
  /-- Stage 3: the segments without an owner yet (R29). -/
  | ownership (todo : List SegPlan)
  /-- Stage 4 (R38). -/
  | accumulation
  /-- Stage 5, classification: the candidate gaps left (R51). -/
  | gaps (todo : List Gap)
  /-- Stage 5, closing check (R59). -/
  | closingCheck
  /-- Stage 6: the hides still to be closed (R42). -/
  | closing (todo : List Owner)
  /-- Stage 7 (R109, R111). -/
  | sites
  /-- Stage 8 (R26). -/
  | exchange
  deriving DecidableEq, Repr

/-- A row pass in progress: the row under pass and where the pass stands (R21). -/
structure Pass where
  row : CondRow
  stage : PassStage
  deriving DecidableEq, Repr

/-- The state of the hide tracker (chapter 2, opening list). -/
structure Tracker where
  rowIndex : Word
  prev : List Seg
  cur : List Seg
  table : List (Option Hide)
  spill : Option Hide
  counter : Half
  closed : Word
  /-- The pass flag is set exactly when this holds a pass (R21). -/
  pass : Option Pass
  noticeWaiting : Bool
  restartsWaiting : Nat
  deriving DecidableEq, Repr

/-! ### Hole tracker (chapter 3) -/

/-- An OPEN hole-table entry (3.2). -/
structure Hole where
  owner : Nat
  firstRow : Word
  cells : Nat
  deriving DecidableEq, Repr

/-- A hole run (3.2). -/
structure Run where
  start : Nat
  stop : Nat
  hole : Nat
  deriving DecidableEq, Repr

/-- The state of the hole tracker (chapter 3, opening list). -/
structure Holes where
  table : List (Option Hole)
  prevRuns : List Run
  curRuns : List Run
  deriving DecidableEq, Repr

/-! ### Records (chapter 11) -/

/-- The source of a hide (R44). -/
inductive Source where
  | belt
  | spill
  | manual
  deriving DecidableEq, Repr

/-- The grade of a hide (4.4). -/
inductive Grade where
  | band (k : Nat)
  | ungraded
  | small
  | oversize
  | review
  deriving DecidableEq, Repr

/-- The reasons of a MISSED outcome (6.5). -/
inductive MissReason where
  | passed
  | notReady
  | headFault
  | restart
  deriving DecidableEq, Repr

/-- The reasons of an UNSTAMPED outcome (6.5). -/
inductive UnstampedReason where
  | review
  | small
  | oversize
  | bandOff
  | stampOff
  | headFault
  | noSite
  | lateClose
  | queueFull
  | truncated
  | manual
  deriving DecidableEq, Repr

/-- The final stamp result of a hide (6.5). -/
inductive StampOutcome where
  | stamped
  | missed (r : MissReason)
  | unstamped (r : UnstampedReason)
  deriving DecidableEq, Repr

/-- The four wheel symbols, each 0 to 13 (4.3). -/
structure Symbols where
  w1 : Nat
  w2 : Nat
  w3 : Nat
  w4 : Nat
  deriving DecidableEq, Repr

/-- A HIDE record but for its outcome and strike row: what a job holds pending (6.3, 11.5). `symbols` is none when all four
wheels are unused (R74). -/
structure HideInfo where
  source : Source
  grade : Grade
  number : Half
  lot : Half
  merges : Nat
  firstRow : Word
  lastRow : Word
  minCol : Nat
  maxCol : Nat
  covered : Nat
  filled : Nat
  units : Nat
  symbols : Option Symbols
  holesFilled : Nat
  holesLarge : Nat
  holesBreached : Nat
  flags : HideFlags
  site : Option Site
  deriving DecidableEq, Repr

/-- The counts of a lot (5.3). -/
structure Tally where
  hides : Nat
  births : Nat
  totalUnits : Nat
  stamped : Nat
  unstamped : Nat
  bands : List Nat
  small : Nat
  oversize : Nat
  review : Nat
  ungraded : Nat
  manual : Nat
  marks : Nat
  deriving DecidableEq, Repr

/-- A lot record of the unit (5.1): an OPEN or a CLOSING lot. -/
structure Lot where
  id : Half
  startRow : Word
  tally : Tally
  calChanged : Bool
  recordsDropped : Bool
  packAuto : Bool
  deriving DecidableEq, Repr

/-- The event kinds (11.5). -/
inductive EventKind where
  | rowIncomplete
  | rowOverrun
  | beltGap
  | beamStuck
  | hideTableFull
  | holeTableFull
  | fragmentRow
  | headFault
  | commitApplied
  deriving DecidableEq, Repr

/-- A record (11.5). -/
inductive Record where
  | hide (info : HideInfo) (outcome : StampOutcome) (strikeRow : Option Word)
  | lot (l : Lot)
  | mark (window : Nat) (data : Word) (hitRow : Word) (bound : Option Half) (ambiguous : Bool) (lot : Half)
  | event (kind : EventKind) (rowIndex : Word) (argument : Word)
  deriving DecidableEq, Repr

/-- The record in progress and the word (0 to 15) to hand in next; 16 when only the producer index is left (R188). -/
structure Outgoing where
  record : Record
  next : Nat
  deriving DecidableEq, Repr

/-- The state of the record writer (11.4). -/
structure Recorder where
  outgoing : List Record
  inProgress : Option Outgoing
  p : Nat
  c : Nat
  heldC : BitVec 11
  dropped : Word
  deriving DecidableEq, Repr

/-! ### Stamp scheduler (chapter 6) -/

/-- The states of a job (6.3). -/
inductive JobState where
  | queued
  | preparing
  | armed
  | striking
  deriving DecidableEq, Repr

/-- A job (6.3); its hide number, lot id and site stand in the pending HIDE record. -/
structure Job where
  info : HideInfo
  strikeRow : Word
  target : Nat
  symbols : Symbols
  state : JobState
  deriving DecidableEq, Repr

/-- The state of the stamp scheduler (chapter 6, opening list): the job queue is the current job, if any, and then the
waiting jobs in order. -/
structure Scheduler where
  heights : List Nat
  current : Option Job
  waiting : List Job
  deriving DecidableEq, Repr

/-! ### Head link (chapter 7) -/

/-- The head state (7.4). -/
inductive HeadState where
  | unknown
  | homing
  | ready
  | preparing
  | armed
  | striking
  | faulted
  | parking
  | headParked
  deriving DecidableEq, Repr

/-- A command word of a slot (7.1); its 16 bits are `SlotCmd.word`. -/
inductive SlotCmd where
  | hold
  | goto (col : Nat)
  | set (symbol : Nat)
  | home
  | park
  | safe
  | arm
  | strike
  deriving DecidableEq, Repr

/-- The latest status of a slot (R133). -/
inductive SlotStatus where
  | none
  | idle (value : BitVec 12)
  | busy
  | fault (code : BitVec 12)
  deriving DecidableEq, Repr

/-- A used slot (chapter 7, opening list). -/
structure Slot where
  held : SlotCmd
  lastSent : SlotCmd
  latest : SlotStatus
  run : Nat
  deriving DecidableEq, Repr

/-- A frame being sent: the commands latched for slots 0 to 5, and what HTX shifts out in slots 0 to 7, none where it is left
undriven (R132, R134). -/
structure Frame where
  latched : List SlotCmd
  htx : List (Option (BitVec 16))
  deriving DecidableEq, Repr

/-- The job in hand (R144). -/
structure InHand where
  number : Half
  target : Nat
  symbols : Symbols
  deriving DecidableEq, Repr

/-- The state of the head link (chapter 7, opening list). -/
structure HeadLink where
  framePeriod : Nat
  gated : Bool
  slots : List Slot
  frame : Option Frame
  hammerCount : Option (BitVec 12)
  state : HeadState
  inHand : Option InHand
  window : Nat
  errors : Word
  deriving DecidableEq, Repr

/-! ### Belt activity controller (chapter 8) -/

/-- The belt states. -/
inductive BeltState where
  | running
  | halted
  | parked
  deriving DecidableEq, Repr

/-- The state of the belt activity controller (chapter 8, opening list). A timer is none when stopped, else the
microseconds elapsed since it was started. -/
structure Belt where
  present : BeltState
  last : Option BeltState
  halt : Option Nat
  park : Option Nat
  deriving DecidableEq, Repr

/-! ### Lot and mark unit (chapter 5) -/

/-- A waiting mark (R99). -/
structure Mark where
  window : Nat
  data : Word
  hitRow : Word
  hitLot : Half
  target : Word
  deriving DecidableEq, Repr

/-- An entry of the recent-hides list (R105). -/
structure RecentHide where
  number : Half
  lot : Half
  firstRow : Word
  lastRow : Word
  deriving DecidableEq, Repr

/-- The state of the lot and mark unit (chapter 5, opening list). The lot boundary row is `openLot.startRow`. -/
structure LotUnit where
  openLot : Lot
  closing : Option Lot
  packCounter : Nat
  packPending : Bool
  sticky : BitVec 4
  markDropSticky : Bool
  markQueue : List Mark
  recent : List RecentHide
  marksDropped : Word
  deriving DecidableEq, Repr

/-! ### Setup page controller (chapter 10) -/

/-- The selling units (R70). -/
inductive SellUnit where
  | qft
  | tft
  | dm2
  deriving DecidableEq, Repr

/-- The rounding modes (R71). -/
inductive Rounding where
  | nearest
  | down
  deriving DecidableEq, Repr

/-- The enables of a mark window (5.5). -/
inductive WinEnable where
  | off
  | global
  | lot
  deriving DecidableEq, Repr

/-- The guarded settings (10.1). -/
structure Guarded where
  rowRingBase : Nat
  slotCount : Nat
  beams : Nat
  stuckLimit : Nat
  mask : Beams
  doubleThreshold : Nat
  fillLimit : Nat
  beamPitch : Nat
  rowPitch : Nat
  trim : Int
  unit : SellUnit
  rounding : Rounding
  sw : Nat
  sl : Nat
  lineOffset : Nat
  deriving DecidableEq, Repr

/-- A grade band (R77). -/
structure Band where
  low : Nat
  high : Nat
  stamp : Bool
  deriving DecidableEq, Repr

/-- A mark window (5.5); `size` is 1, 2 or 4 bytes. -/
structure Window where
  base : Nat
  size : Nat
  readWrite : Bool
  enable : WinEnable
  deriving DecidableEq, Repr

/-- The unguarded settings (10.1). -/
structure Unguarded where
  gapBridge : Nat
  noiseLimit : Nat
  smallLimit : Nat
  oversizeLimit : Nat
  bands : List Band
  stamping : Bool
  packSize : Nat
  markLag : Nat
  windows : List Window
  ringBase : Nat
  ringSize : Nat
  haltMs : Nat
  parkS : Nat
  framePeriod : Nat
  deriving DecidableEq, Repr

/-- The pending guarded snapshot and the tag of its COMMIT (R180). -/
structure Snapshot where
  fields : Guarded
  tag : Half
  deriving DecidableEq, Repr

/-- The result codes (11.3). -/
inductive ResultCode where
  | done
  | deferred
  | range
  | busy
  | state
  | unknown
  deriving DecidableEq, Repr

/-- The command result (R177). `offset` is the byte offset ÷ 4. -/
structure CmdResult where
  tag : Half
  code : BitVec 4
  result : ResultCode
  offset : BitVec 8
  deriving DecidableEq, Repr

/-- The state of the setup page controller (chapter 10, opening list). The commit state is PENDING exactly while `snapshot`
is present (R180). -/
structure SetupPage where
  staged : List Word
  guarded : Guarded
  unguarded : Unguarded
  snapshot : Option Snapshot
  arg1 : Word
  arg2 : Word
  result : CmdResult
  deriving DecidableEq, Repr

/-! ### The memory path (chapter 9) -/

/-- The RAM beyond the memory port: (byte address, byte) pairs, addresses strictly rising, no pair holding what an unlisted
address reads as (log entry 8). -/
abbrev Memory := List Host.Cell

/-- An entry of the posted write queue (R171). -/
structure Posted where
  addr : BitVec 24
  data : Word
  deriving DecidableEq, Repr

/-- The memory port's transaction in progress (chapter 9, opening list). -/
inductive PortTxn where
  /-- An upstream transaction, with the number of its beats that have passed. -/
  | upstream (t : Transaction) (passed : Nat)
  /-- One part word. -/
  | partWord (w : Posted)
  deriving DecidableEq, Repr

/-- The two producers of posted words (R171). -/
inductive Producer where
  | statusWriter
  | recordWriter
  deriving DecidableEq, Repr

/-- The state of the memory path (chapter 9, opening list), with the RAM beyond it and the data the LD pins carried back for
the latest read. -/
structure MemPath where
  base : Nat
  port : Option PortTxn
  queue : List Posted
  fairness : Nat
  turn : Producer
  lineData : List Word
  ram : Memory
  deriving DecidableEq, Repr

/-! ### The whole -/

/-- Every block but the memory path, with the status writer's dirty set (R185) and the model's own counter of free values. -/
structure Part where
  intake : Intake
  tracker : Tracker
  holes : Holes
  sched : Scheduler
  head : HeadLink
  belt : Belt
  lots : LotUnit
  setup : SetupPage
  recorder : Recorder
  /-- The dirty status words by number 0 to 47, rising. -/
  dirty : List Nat
  /-- The model's own: how many free choices have been drawn (log entry 11). -/
  free : Nat
  deriving DecidableEq, Repr

/-- The HF38, the RAM it serves, and the commands that wait. -/
structure State where
  part : Part
  path : MemPath
  pending : List Instr
  deriving DecidableEq, Repr

/-- Nothing in the spec stops the block: this type has no reason in it, and no command faults. -/
inductive Fault where
  deriving DecidableEq, Repr

/-- Why a command is refused. -/
inductive Refusal where
  /-- Raised by exec's arm of a command that has no meaning yet. Safe: the model stops. -/
  | notModelled (mnemonic : String)
  /-- Raised by a meaning whose operands no line-bus beat or link event can have (Instr.wellFormed): a transaction of 0 or
  more than 8 beats, a word past the setup area or the status block, an UNKNOWN_COMMAND with a known code. Safe: such a
  command does not occur (log entry 25). -/
  | illFormed
  deriving DecidableEq, Repr

/-! ### Values after power-on reset -/

/-- No flag set (2.3). -/
def HideFlags.empty : HideFlags :=
  { double := false, spillJoined := false, fragment := false, noisy := false, holeLimit := false, gapRows := false,
    edge := false, maskedBeams := false, truncated := false }

/-- An empty tally (R85). -/
def Tally.empty : Tally :=
  { hides := 0, births := 0, totalUnits := 0, stamped := 0, unstamped := 0, bands := List.replicate 8 0, small := 0,
    oversize := 0, review := 0, ungraded := 0, manual := 0, marks := 0 }

/-- A lot as it becomes OPEN: empty tally, no flags (R87). -/
def Lot.fresh (id : Half) (startRow : Word) : Lot :=
  { id := id, startRow := startRow, tally := Tally.empty, calChanged := false, recordsDropped := false, packAuto := false }

/-- The power-on values of the guarded settings (11.2). -/
def Guarded.powerOn : Guarded :=
  { rowRingBase := 0, slotCount := 0, beams := 384, stuckLimit := 4096, mask := 0, doubleThreshold := 2000, fillLimit := 40,
    beamPitch := 8000, rowPitch := 8000, trim := 0, unit := .qft, rounding := .nearest, sw := 4, sl := 4, lineOffset := 200 }

/-- The power-on values of the unguarded settings (11.2). -/
def Unguarded.powerOn : Unguarded :=
  { gapBridge := 2, noiseLimit := 0, smallLimit := 20, oversizeLimit := 65535,
    bands := List.replicate 8 { low := 65535, high := 0, stamp := true }, stamping := false, packSize := 0, markLag := 0,
    windows := List.replicate 4 { base := 0, size := 4, readWrite := false, enable := .off },
    ringBase := 0, ringSize := 0, haltMs := 500, parkS := 120, framePeriod := 1000 }

/-- The staged copy after power-on reset: the power-on value of every field at its place in words 0x000 to 0x0BC (R183, 11.2). -/
def stagedPowerOn : List Word :=
  [0, 0, 384, 2, 4096] ++ List.replicate 12 0 ++ [0, 2000, 40, 8000, 8000, 0, 0, 0x404, 200, 20, 65535] ++
    List.replicate 8 0xFFFF ++ [0xFF, 0, 0] ++ List.replicate 4 0x2000000 ++ [0, 0, 500, 120, 1000]

/-- R18. -/
def Intake.powerOn : Intake :=
  { buffers := [], expected := 0, syncPending := true, lastRow := 0, queue := [], autoMask := 0,
    stuck := List.replicate 384 0, accepted := 0, synthesized := 0, dropped := 0, duplicates := 0 }

/-- R47. -/
def Tracker.powerOn : Tracker :=
  { rowIndex := 0, prev := [], cur := [], table := List.replicate 16 none, spill := none, counter := 1, closed := 0,
    pass := none, noticeWaiting := false, restartsWaiting := 0 }

/-- R65. -/
def Holes.powerOn : Holes := { table := List.replicate 32 none, prevRuns := [], curRuns := [] }

/-- R130. -/
def Scheduler.powerOn : Scheduler := { heights := List.replicate 384 0, current := none, waiting := [] }

/-- A slot after power-on reset: the word last sent is the held word itself (R142). -/
def Slot.powerOn (c : SlotCmd) : Slot := { held := c, lastSent := c, latest := .none, run := 0 }

/-- R142. The belt is PARKED, so frames are gated (R135). -/
def HeadLink.powerOn : HeadLink :=
  { framePeriod := 1000, gated := true,
    slots := [Slot.powerOn .hold, Slot.powerOn .hold, Slot.powerOn .hold, Slot.powerOn .hold, Slot.powerOn .hold,
      Slot.powerOn .safe],
    frame := none, hammerCount := none, state := .unknown, inHand := none, window := 0, errors := 0 }

/-- R152. -/
def Belt.powerOn : Belt := { present := .parked, last := none, halt := none, park := none }

/-- R85, R107. -/
def LotUnit.powerOn : LotUnit :=
  { openLot := Lot.fresh 0 0, closing := none, packCounter := 0, packPending := false, sticky := 0, markDropSticky := false,
    markQueue := [], recent := [], marksDropped := 0 }

/-- R183. -/
def SetupPage.powerOn : SetupPage :=
  { staged := stagedPowerOn, guarded := Guarded.powerOn, unguarded := Unguarded.powerOn, snapshot := none, arg1 := 0,
    arg2 := 0, result := { tag := 0, code := 0, result := .done, offset := 0 } }

/-- R190. -/
def Recorder.powerOn : Recorder := { outgoing := [], inProgress := none, p := 0, c := 0, heldC := 0, dropped := 0 }

/-- Every block but the memory path after power-on reset; all 48 status words are dirty (R185). -/
def Part.powerOn : Part :=
  { intake := Intake.powerOn, tracker := Tracker.powerOn, holes := Holes.powerOn, sched := Scheduler.powerOn,
    head := HeadLink.powerOn, belt := Belt.powerOn, lots := LotUnit.powerOn, setup := SetupPage.powerOn,
    recorder := Recorder.powerOn, dirty := List.range 48, free := 0 }

/-- The setup page base by the straps (R167). -/
def pageBase (straps : BitVec 3) : Nat := 0x1FF000 + 0x200000 * straps.toNat

/-- The memory path after power-on reset (R174); the RAM is not the part's and keeps its bytes (log entry 24). -/
def MemPath.powerOn (straps : BitVec 3) (ram : Memory) : MemPath :=
  { base := pageBase straps, port := none, queue := [], fairness := 0, turn := .statusWriter, lineData := [], ram := ram }

/-- The machine right after power-on reset, with straps 0 (log entry 9) and a RAM nothing has written (log entry 8). -/
def State.reset : State := { part := Part.powerOn, path := MemPath.powerOn 0 [], pending := [] }

end Sys2Proof.Machine
end

