-- ==== Sys2Proof/Machine/Ops.lean ====
section
/-! DEFINITION. The operations every block shares: circular row order, saturating sums, byte lanes, the RAM beyond the memory
port, the dirty set, hide-table access, and putting records into the outgoing queue. -/

namespace Sys2Proof.Machine

/-! ### Row order and sums -/

/-- `a` lies at or before `b` in the circular order of row indexes (R22, R120). -/
def atOrBefore (a b : Word) : Bool := decide ((b - a).toNat < 2147483648)

/-- `a` lies before `b` in the circular order. -/
def before (a b : Word) : Bool := atOrBefore a b && decide (a ≠ b)

/-- The earlier of two row indexes (R34). -/
def earlier (a b : Word) : Word := if atOrBefore a b then a else b

/-- The later of two row indexes. -/
def later (a b : Word) : Word := if atOrBefore a b then b else a

/-- A sum that stops at its limit (00, Conventions). -/
def satAdd (limit a b : Nat) : Nat := min limit (a + b)

/-- Limit of the 16-bit saturating counts of a hide and of a lot. -/
def max16 : Nat := 65535

/-- Limit of the 32-bit saturating counts of a hide and of a lot. -/
def max32 : Nat := 4294967295

/-- Insert by an order into a list that has it, in front of the first element that `le` does not put before `x`. -/
def insertBy {α : Type} (le : α → α → Bool) (x : α) : List α → List α
  | [] => [x]
  | y :: ys => if le y x then y :: insertBy le x ys else x :: y :: ys

/-- The list in the order of `le`, elements of equal rank in the order they had. -/
def sortBy {α : Type} (le : α → α → Bool) (l : List α) : List α := l.foldl (fun acc x => insertBy le x acc) []

/-! ### Byte lanes -/

/-- The 32-bit mask of the enabled lanes. -/
def laneMask (en : Lanes) : Word :=
  (if en.getLsbD 0 then 0xFF else 0) ||| (if en.getLsbD 1 then 0xFF00 else 0) |||
    (if en.getLsbD 2 then 0xFF0000 else 0) ||| (if en.getLsbD 3 then 0xFF000000 else 0)

/-- Merge the enabled byte lanes of a beat into a held word (R3, R175, R176, R186). -/
def mergeLanes (old new : Word) (en : Lanes) : Word := (old &&& ~~~ laneMask en) ||| (new &&& laneMask en)

/-- Byte lane `l` of a word; lane 0 is the lowest address (00, Conventions). -/
def laneByte (w : Word) (l : Nat) : Byte := w.extractLsb' (8 * l) 8

/-! ### The RAM beyond the memory port -/

/-- What a byte of RAM that nothing has written reads as: DESIGN CHOICE, log entry 8. -/
def ramFill : Byte := 0

/-- Read one byte of the RAM. -/
def Memory.read : Memory → Nat → Byte
  | [], _ => ramFill
  | (x, b) :: m, a => if a = x then b else Memory.read m a

/-- Write one byte of the RAM, keeping the canonical form. -/
def Memory.write : Memory → Nat → Byte → Memory
  | [], a, b => if b = ramFill then [] else [(a, b)]
  | (x, y) :: m, a, b =>
    if a < x then (if b = ramFill then (x, y) :: m else (a, b) :: (x, y) :: m)
    else if a = x then (if b = ramFill then m else (a, b) :: m)
    else (x, y) :: Memory.write m a b

/-- The canonical form from a lowest allowed address on: strictly rising, no byte equal to the fill, inside 16 megabytes. -/
def Memory.wfFrom : Nat → Memory → Bool
  | _, [] => true
  | lo, (x, b) :: m => decide (lo ≤ x) && decide (x < 0x1000000) && decide (b ≠ ramFill) && Memory.wfFrom (x + 1) m

/-- The canonical form of the RAM. -/
def Memory.wf (m : Memory) : Bool := Memory.wfFrom 0 m

/-- The byte address of lane `l` of the word at a word address. -/
def laneAddr (addr : BitVec 24) (l : Nat) : Nat := (addr + BitVec.ofNat 24 l).toNat

/-- Write one lane of a word if it is enabled (R164: the RAM writes no byte for a lane that is not). -/
def Memory.writeLane (m : Memory) (addr : BitVec 24) (en : Lanes) (w : Word) (l : Nat) : Memory :=
  if en.getLsbD l then m.write (laneAddr addr l) (laneByte w l) else m

/-- Write the enabled lanes of a word. -/
def Memory.writeWord (m : Memory) (addr : BitVec 24) (en : Lanes) (w : Word) : Memory :=
  (((m.writeLane addr en w 0).writeLane addr en w 1).writeLane addr en w 2).writeLane addr en w 3

/-- Read a word, the byte of lane 0 in its lowest bits. -/
def Memory.readWord (m : Memory) (addr : BitVec 24) : Word :=
  m.read (laneAddr addr 3) ++ m.read (laneAddr addr 2) ++ m.read (laneAddr addr 1) ++ m.read (laneAddr addr 0)

/-! ### The dirty set (R185) -/

/-- Insert into a rising list without repeats. -/
def insertRising (n : Nat) : List Nat → List Nat
  | [] => [n]
  | x :: xs => if n < x then n :: x :: xs else if n = x then x :: xs else x :: insertRising n xs

/-- Status word numbers: (byte offset − 0x140) ÷ 4 (11.3). -/
def wBelt : Nat := 1
def wRow : Nat := 2
def wHideNumber : Nat := 3
def wAccepted : Nat := 4
def wSynthesized : Nat := 5
def wDropped : Nat := 6
def wDuplicates : Nat := 7
def wClosed : Nat := 8
def wRecordsDropped : Nat := 9
def wMarksDropped : Nat := 10
def wLinkErrors : Nat := 11
def wSticky : Nat := 12
def wOpenLot : Nat := 13
def wClosingLot : Nat := 14
def wCommit : Nat := 15
def wResult : Nat := 16
def wProducer : Nat := 17

/-- A status word joins the dirty set (R185). -/
def Part.mark (p : Part) (w : Nat) : Part := { p with dirty := insertRising w p.dirty }

/-! ### Access to the hide table -/

/-- Entry `i` of a table whose FREE entries are none. -/
def tableGet {α : Type} (t : List (Option α)) (i : Nat) : Option α := t.getD i none

/-- The lowest FREE entry at or above `i` (R30, R54). -/
def lowestFree {α : Type} : List (Option α) → Nat → Option Nat
  | [], _ => none
  | none :: _, i => some i
  | some _ :: t, i => lowestFree t (i + 1)

/-- The hide an owner holds. -/
def Part.hideOf (p : Part) : Owner → Option Hide
  | .entry i => tableGet p.tracker.table i
  | .spill => p.tracker.spill

/-- Replace what an owner holds. -/
def Part.setHide (p : Part) (o : Owner) (h : Option Hide) : Part :=
  match o with
  | .entry i => { p with tracker.table := p.tracker.table.set i h }
  | .spill => { p with tracker.spill := h }

/-- Change the hide an owner holds; nothing if it holds none. -/
def Part.modifyHide (p : Part) (o : Owner) (f : Hide → Hide) : Part := p.setHide o ((p.hideOf o).map f)

/-- The owners of the OPEN entries from index `i` on. -/
def openEntriesFrom : List (Option Hide) → Nat → List Owner
  | [], _ => []
  | none :: t, i => openEntriesFrom t (i + 1)
  | some _ :: t, i => .entry i :: openEntriesFrom t (i + 1)

/-- The owners that hold a hide: the OPEN entries in index order, then an OPEN spill account. -/
def Part.openOwners (p : Part) : List Owner :=
  openEntriesFrom p.tracker.table 0 ++ (if p.tracker.spill.isSome then [.spill] else [])

/-- Every hide now open, the spill account's included. -/
def Part.openHides (p : Part) : List Hide := p.tracker.table.filterMap id ++ p.tracker.spill.toList

/-- No row pass in progress, no OPEN entry, spill account idle (R21). -/
def Part.trackerQuiet (p : Part) : Bool := p.tracker.pass.isNone && p.openHides.isEmpty

/-- The job queue, the current job first (R116). -/
def Part.jobs (p : Part) : List Job := p.sched.current.toList ++ p.sched.waiting

/-! ### The outgoing record queue (R187) -/

/-- The record is a LOT record. -/
def Record.isLot : Record → Bool
  | .lot _ => true
  | .hide _ _ _ | .mark _ _ _ _ _ _ | .event _ _ _ => false

/-- Set RECORDS_DROPPED on the OPEN or CLOSING lot of this id, if there is one (R93; lots are told by id, log entry 15). -/
def Part.flagDropped (p : Part) (id : Half) : Part :=
  if p.lots.openLot.id = id then { p with lots.openLot.recordsDropped := true }
  else { p with lots.closing := p.lots.closing.map (fun l => if l.id = id then { l with recordsDropped := true } else l) }

/-- The effects of a drop (R187, R93): the counter, and the flag of the lot the record names; an EVENT flags the OPEN lot, a
LOT record's own lot is CLOSED already. -/
def Part.dropRecord (p : Part) (r : Record) : Part :=
  let p := { p with recorder.dropped := p.recorder.dropped + 1 }.mark wRecordsDropped
  match r with
  | .hide info _ _ => p.flagDropped info.lot
  | .mark _ _ _ _ _ lot => p.flagDropped lot
  | .event _ _ _ => p.flagDropped p.lots.openLot.id
  | .lot _ => p

/-- Take the newest non-LOT record out of a queue (R187): the record and the rest. -/
def takeNewestNonLot (q : List Record) : Option (Record × List Record) :=
  match q.reverse.span Record.isLot with
  | (_, []) => none
  | (lots, r :: rest) => some (r, rest.reverse ++ lots.reverse)

/-- A produced record joins the outgoing queue, is dropped, or as a LOT record displaces the newest non-LOT record (R187). -/
def Part.emit (p : Part) (r : Record) : Part :=
  if p.recorder.outgoing.length < 8 then { p with recorder.outgoing := p.recorder.outgoing ++ [r] }
  else if r.isLot then
    match takeNewestNonLot p.recorder.outgoing with
    | some (old, rest) => { p with recorder.outgoing := rest ++ [r] }.dropRecord old
    | none => p.dropRecord r
  else p.dropRecord r

/-- Raise an event: an EVENT record with the row index as it stands (R17, R22). -/
def Part.raise (p : Part) (k : EventKind) (argument : Word) : Part := p.emit (.event k p.tracker.rowIndex argument)

end Sys2Proof.Machine
end

