-- ==== Sys2Proof/Machine/Formats.lean ====
section
/-! DEFINITION. The words software and the stamp head see (chapter 11): records, status words, head-link words. -/

namespace Sys2Proof.Machine

/-- A value in bits from `lo` on of a word; what does not fit the word is cut off. -/
def field (lo v : Nat) : Word := BitVec.ofNat 32 v <<< lo

/-- A one-bit field. -/
def bitField (lo : Nat) (b : Bool) : Word := field lo b.toNat

/-! ### Records (11.5) -/

def Source.code : Source → Nat
  | .belt => 0
  | .spill => 1
  | .manual => 2

def Grade.code : Grade → Nat
  | .band k => k
  | .ungraded => 8
  | .small => 9
  | .oversize => 10
  | .review => 11

def MissReason.code : MissReason → Nat
  | .passed => 0
  | .notReady => 1
  | .headFault => 2
  | .restart => 3

def UnstampedReason.code : UnstampedReason → Nat
  | .review => 0
  | .small => 1
  | .oversize => 2
  | .bandOff => 3
  | .stampOff => 4
  | .headFault => 5
  | .noSite => 6
  | .lateClose => 7
  | .queueFull => 8
  | .truncated => 9
  | .manual => 10

/-- Outcome class (11.5, HIDE word 12 bits 1:0). -/
def StampOutcome.cls : StampOutcome → Nat
  | .stamped => 0
  | .missed _ => 1
  | .unstamped _ => 2

/-- Outcome reason (11.5, HIDE word 12 bits 7:4); STAMPED carries 0. -/
def StampOutcome.reason : StampOutcome → Nat
  | .stamped => 0
  | .missed r => r.code
  | .unstamped r => r.code

def EventKind.code : EventKind → Nat
  | .rowIncomplete => 1
  | .rowOverrun => 2
  | .beltGap => 3
  | .beamStuck => 4
  | .hideTableFull => 5
  | .holeTableFull => 6
  | .fragmentRow => 7
  | .headFault => 8
  | .commitApplied => 9

/-- The flag bits of a HIDE record (11.5, word 11). -/
def HideFlags.word (f : HideFlags) : Word :=
  bitField 0 f.double ||| bitField 1 f.spillJoined ||| bitField 2 f.fragment ||| bitField 3 f.noisy |||
    bitField 4 f.holeLimit ||| bitField 5 f.gapRows ||| bitField 6 f.edge ||| bitField 7 f.maskedBeams |||
    bitField 8 f.truncated

/-- Wheels 1 to 4 (11.5, HIDE word 8): 15 marks a wheel unused. -/
def symbolsWord : Option Symbols → Word
  | none => 0xFFFF
  | some s => field 0 s.w1 ||| field 4 s.w2 ||| field 8 s.w3 ||| field 12 s.w4

/-- The 16 words of a HIDE record (11.5). -/
def hideWords (h : HideInfo) (o : StampOutcome) (strike : Option Word) : List Word :=
  [field 0 1 ||| field 8 h.source.code ||| field 12 h.grade.code ||| field 16 h.number.toNat,
   field 0 h.lot.toNat ||| field 16 h.merges,
   h.firstRow,
   h.lastRow,
   field 0 h.minCol ||| field 16 h.maxCol,
   field 0 h.covered,
   field 0 h.filled,
   field 0 h.units,
   symbolsWord h.symbols,
   field 0 h.holesFilled ||| field 16 h.holesLarge,
   field 0 h.holesBreached,
   h.flags.word,
   field 0 o.cls ||| field 4 o.reason ||| bitField 8 h.site.isSome ||| bitField 9 strike.isSome,
   (h.site.map Site.row).getD 0,
   field 0 ((h.site.map Site.col).getD 0),
   strike.getD 0]

/-- The 16 words of a LOT record (11.5). -/
def lotWords (l : Lot) : List Word :=
  let t := l.tally
  let band := fun k => t.bands.getD k 0
  [field 0 2 ||| bitField 8 l.calChanged ||| bitField 9 l.recordsDropped ||| bitField 10 l.packAuto |||
     field 16 l.id.toNat,
   l.startRow,
   field 0 t.hides ||| field 16 t.births,
   field 0 t.totalUnits,
   field 0 t.stamped ||| field 16 t.unstamped,
   field 0 (band 0) ||| field 16 (band 1),
   field 0 (band 2) ||| field 16 (band 3),
   field 0 (band 4) ||| field 16 (band 5),
   field 0 (band 6) ||| field 16 (band 7),
   field 0 t.small ||| field 16 t.oversize,
   field 0 t.review ||| field 16 t.ungraded,
   field 0 t.manual ||| field 16 t.marks,
   0, 0, 0, 0]

/-- The 16 words of a MARK record (11.5). -/
def markWords (window : Nat) (data hitRow : Word) (bound : Option Half) (ambiguous : Bool) (lot : Half) : List Word :=
  [field 0 3 ||| field 8 window ||| bitField 12 bound.isSome ||| bitField 13 ambiguous |||
     field 16 (bound.getD 0).toNat,
   data, hitRow, field 0 lot.toNat] ++ List.replicate 12 0

/-- The 16 words of an EVENT record (11.5). -/
def eventWords (k : EventKind) (rowIndex argument : Word) : List Word :=
  [field 0 4 ||| field 8 k.code, rowIndex, argument] ++ List.replicate 13 0

/-- The 16 words of a record (11.5). -/
def Record.words : Record → List Word
  | .hide info o strike => hideWords info o strike
  | .lot l => lotWords l
  | .mark w d r b a l => markWords w d r b a l
  | .event k r a => eventWords k r a

/-! ### Status words (11.3) -/

def BeltState.code : BeltState → Nat
  | .running => 0
  | .halted => 1
  | .parked => 2

/-- Last belt state: 3 is none (11.3). -/
def lastBeltCode : Option BeltState → Nat
  | none => 3
  | some b => b.code

def HeadState.code : HeadState → Nat
  | .unknown => 0
  | .homing => 1
  | .ready => 2
  | .preparing => 3
  | .armed => 4
  | .striking => 5
  | .faulted => 6
  | .parking => 7
  | .headParked => 8

def ResultCode.code : ResultCode → Nat
  | .done => 0
  | .deferred => 1
  | .range => 2
  | .busy => 3
  | .state => 4
  | .unknown => 5

/-- Status word 0x178: the CLOSING lot, all zero when there is none (11.3). -/
def closingWord : Option Lot → Word
  | none => 0
  | some l => field 0 l.id.toNat ||| field 16 1

/-- What status word number `w` shows now (11.3). -/
def Part.statusWord (p : Part) : Nat → Word
  | 0 => field 0 0x0157 ||| field 16 0x38 ||| field 24 Config.siliconRevision.toNat
  | 1 => field 0 p.belt.present.code ||| field 2 (lastBeltCode p.belt.last) ||| field 8 p.head.state.code
  | 2 => p.tracker.rowIndex
  | 3 => field 0 p.tracker.counter.toNat
  | 4 => p.intake.accepted
  | 5 => p.intake.synthesized
  | 6 => p.intake.dropped
  | 7 => p.intake.duplicates
  | 8 => p.tracker.closed
  | 9 => p.recorder.dropped
  | 10 => p.lots.marksDropped
  | 11 => p.head.errors
  | 12 => field 0 p.lots.sticky.toNat ||| bitField 8 p.lots.markDropSticky
  | 13 => field 0 p.lots.openLot.id.toNat
  | 14 => closingWord p.lots.closing
  | 15 => bitField 0 p.setup.snapshot.isSome
  | 16 => field 0 p.setup.result.code.toNat ||| field 4 p.setup.result.result.code |||
      field 8 p.setup.result.offset.toNat ||| field 16 p.setup.result.tag.toNat
  | 17 => field 0 p.recorder.p
  | _ => 0

/-! ### Head-link words (11.6) -/

/-- The 16 bits of a command word: code in 15:12, operand in 11:0 (11.6). -/
def SlotCmd.word : SlotCmd → BitVec 16
  | .hold => 0x0000
  | .goto col => 0x1000 ||| BitVec.ofNat 16 (col % 4096)
  | .set symbol => 0x1000 ||| BitVec.ofNat 16 (symbol % 4096)
  | .home => 0x2000
  | .park => 0x3000
  | .safe => 0x0000
  | .arm => 0x1000
  | .strike => 0x2000

/-- The carriage's home position as an IDLE value (11.6). -/
def carriageHome : BitVec 12 := 0xF00

/-- The carriage's park position as an IDLE value (11.6). -/
def carriagePark : BitVec 12 := 0xF01

/-- The blank symbol (4.3). -/
def blankSymbol : Nat := 10

/-- How many bits of a status word are ones. -/
def onesOf (w : BitVec 16) : Nat := ((List.range 16).filter (fun i => w.getLsbD i)).length

/-- Odd parity holds (7.3). -/
def parityGood (w : BitVec 16) : Bool := onesOf w % 2 == 1

/-- The status a word carries: kind in 14:12, value in 11:0; a kind that names none is FAULT with code 4095 (R138). -/
def decodeStatus (w : BitVec 16) : SlotStatus :=
  match (w.extractLsb' 12 3).toNat with
  | 0 => .idle (w.extractLsb' 0 12)
  | 1 => .busy
  | 2 => .fault (w.extractLsb' 0 12)
  | _ => .fault 4095

/-- Why a slot is in a fault condition (R140). -/
inductive FaultCode where
  | module (code : BitVec 12)
  | absent
  | parity
  | mismatch
  | count
  | noStrike
  deriving DecidableEq, Repr

def FaultCode.code : FaultCode → Nat
  | .module _ => 0
  | .absent => 1
  | .parity => 2
  | .mismatch => 3
  | .count => 4
  | .noStrike => 5

/-- The argument of a HEAD_FAULT event: slot 2:0, code 10:8, module's code 27:16 (11.5). -/
def headFaultArg (slot : Nat) (c : FaultCode) : Word :=
  field 0 slot ||| field 8 c.code |||
    (match c with
     | .module m => field 16 m.toNat
     | _ => 0)

end Sys2Proof.Machine
end

