-- ==== Sys2Proof/Machine/Lots.lean ====
section
/-! DEFINITION. The lot and mark unit (chapter 5): births, lot transitions, tallies, the closing test, marks. -/

namespace Sys2Proof.Machine

/-! ### Lot transitions -/

/-- A window enabled LOT goes OFF at a lot transition (R100). -/
def Window.endOfLot (w : Window) : Window := if w.enable = .lot then { w with enable := .off } else w

/-- The lot transition of R87: boundary at the next row, the OPEN lot becomes CLOSING, a new lot becomes OPEN. -/
def Part.lotTransition (p : Part) (id : Half) (packAuto : Bool) : Part :=
  let old := { p.lots.openLot with packAuto := p.lots.openLot.packAuto || packAuto }
  (({ p with
      lots.closing := some old
      lots.openLot := Lot.fresh id (p.tracker.rowIndex + 1)
      lots.packCounter := 0
      setup.unguarded.windows := p.setup.unguarded.windows.map Window.endOfLot }).mark wOpenLot).mark wClosingLot

/-- The pack condition: the pack size is not 0 and the pack counter has reached it (R88). -/
def Part.packDue (p : Part) : Bool :=
  decide (p.setup.unguarded.packSize ≠ 0) && decide (p.setup.unguarded.packSize ≤ p.lots.packCounter)

/-- A pack transition: to the OPEN lot's id plus one, with PACK_AUTO (R88). -/
def Part.packTransition (p : Part) : Part := p.lotTransition (p.lots.openLot.id + 1) true

/-- The births count of a lot goes up by one (R86). -/
def Lot.addBirth (l : Lot) : Lot := { l with tally.births := satAdd max16 l.tally.births 1 }

/-- A birth at the current row: the lot it is given, and the counting of it, which may start a pack transition (R86, R88). -/
def Part.birthLot (p : Part) : Half × Part :=
  match p.lots.closing with
  | some l =>
    if before p.tracker.rowIndex p.lots.openLot.startRow then
      (l.id, { p with lots.closing := some l.addBirth })
    else
      let p := { p with lots.openLot := p.lots.openLot.addBirth, lots.packCounter := p.lots.packCounter + 1 }
      (p.lots.openLot.id, if p.packDue then { p with lots.packPending := true } else p)
  | none =>
    let p := { p with lots.openLot := p.lots.openLot.addBirth, lots.packCounter := p.lots.packCounter + 1 }
    (p.lots.openLot.id, if p.packDue then p.packTransition else p)

/-! ### Tally -/

/-- Add one to band count `k`. -/
def addBand (bands : List Nat) (k : Nat) : List Nat := bands.set k (bands.getD k 0 + 1)

/-- The count of the hide's grade goes up by one (R91). -/
def Tally.addGrade (t : Tally) : Grade → Tally
  | .band k => { t with bands := addBand t.bands k }
  | .ungraded => { t with ungraded := t.ungraded + 1 }
  | .small => { t with small := t.small + 1 }
  | .oversize => { t with oversize := t.oversize + 1 }
  | .review => { t with review := t.review + 1 }

/-- STAMPED and UNSTAMPED outcomes are counted, MISSED ones are not (R91). -/
def Tally.addOutcome (t : Tally) : StampOutcome → Tally
  | .stamped => { t with stamped := t.stamped + 1 }
  | .missed _ => t
  | .unstamped _ => { t with unstamped := t.unstamped + 1 }

/-- A hide of source MANUAL is counted in manual (R91). -/
def Tally.addSource (t : Tally) : Source → Tally
  | .manual => { t with manual := t.manual + 1 }
  | .belt | .spill => t

/-- A hide with a final outcome is counted; at 65535 hides nothing changes (R91, R92). -/
def Tally.addHide (t : Tally) (info : HideInfo) (o : StampOutcome) : Tally :=
  if 65535 ≤ t.hides then t
  else
    { (((t.addGrade info.grade).addOutcome o).addSource info.source) with
      hides := t.hides + 1
      totalUnits := satAdd max32 t.totalUnits info.units }

/-- Change the OPEN or CLOSING lot of this id, if there is one. -/
def Part.modifyLot (p : Part) (id : Half) (f : Lot → Lot) : Part :=
  if p.lots.openLot.id = id then { p with lots.openLot := f p.lots.openLot }
  else { p with lots.closing := p.lots.closing.map (fun l => if l.id = id then f l else l) }

/-- Release a completed HIDE record: tally first, then the record writer (R126). -/
def Part.release (p : Part) (info : HideInfo) (o : StampOutcome) (strike : Option Word) : Part :=
  (p.modifyLot info.lot (fun l => { l with tally := l.tally.addHide info o })).emit (.hide info o strike)

/-! ### The closing test -/

/-- Something still holds the lot: an OPEN entry, a job, or the OPEN spill account (R89). -/
def Part.lotHeld (p : Part) (id : Half) : Bool :=
  p.openHides.any (fun h => decide (h.lot = id)) || p.jobs.any (fun j => decide (j.info.lot = id))

/-- Close the CLOSING lot if nothing holds it: the lot is dropped and its LOT record produced (R89, R94). -/
def Part.closeLotIfEmpty (p : Part) : Part :=
  match p.lots.closing with
  | none => p
  | some l =>
    if p.lotHeld l.id then p
    else (({ p with lots.closing := none }).mark wClosingLot).emit (.lot l)

/-- After a lot has closed, a pending pack transition is tested again and made (R88). -/
def Part.takePackPending (p : Part) : Part :=
  if p.lots.packPending then
    let p := { p with lots.packPending := false }
    if p.packDue then p.packTransition else p
  else p

/-- The closing test (R89): only with no row pass in progress. A lot transition it makes is followed by another. -/
def Part.closingTest (p : Part) : Part :=
  if p.tracker.pass.isSome || p.lots.closing.isNone then p
  else
    let p := p.closeLotIfEmpty
    if p.lots.closing.isNone then p.takePackPending.closeLotIfEmpty else p

/-- The closing test that a final outcome of a hide of lot `id` makes due (R89, R91). -/
def Part.closingTestFor (p : Part) (id : Half) : Part :=
  match p.lots.closing with
  | some l => if l.id = id then p.closingTest else p
  | none => p

/-! ### Marks -/

/-- An OPEN entry whose first row is at most `t` (R101); the spill account is none. -/
def Part.hasOpenCandidate (p : Part) (t : Word) : Bool :=
  (p.tracker.table.filterMap id).any (fun h => atOrBefore h.firstRow t)

/-- The recent hides that covered row `t` (R101). -/
def Part.recentCandidates (p : Part) (t : Word) : List RecentHide :=
  p.lots.recent.filter (fun r => atOrBefore r.firstRow t && atOrBefore t r.lastRow)

/-- The order of R102: lower first row, then lower hide number. -/
def RecentHide.le (a b : RecentHide) : Bool :=
  before a.firstRow b.firstRow || (decide (a.firstRow = b.firstRow) && decide (a.number ≤ b.number))

/-- The recent candidate a mark is bound to (R102). -/
def bestRecent : List RecentHide → Option RecentHide
  | [] => none
  | r :: rs => some (rs.foldl (fun best x => if RecentHide.le best x then best else x) r)

/-- Produce the MARK record and count the mark in its lot if that is OPEN or CLOSING (R106). -/
def Part.markRecord (p : Part) (window : Nat) (data hitRow : Word) (bound : Option Half) (ambiguous : Bool) (lot : Half) :
    Part :=
  (p.modifyLot lot (fun l => { l with tally.marks := satAdd max16 l.tally.marks 1 })).emit
    (.mark window data hitRow bound ambiguous lot)

/-- Resolve a mark that has no open candidate (R102). -/
def Part.resolveMark (p : Part) (m : Mark) : Part :=
  let recents := p.recentCandidates m.target
  match bestRecent recents with
  | some r => p.markRecord m.window m.data m.hitRow (some r.number) (decide (2 ≤ recents.length)) r.lot
  | none => p.markRecord m.window m.data m.hitRow none false m.hitLot

/-- The marks-dropped counter goes up and the sticky flag is set (R103). -/
def Part.dropMark (p : Part) : Part :=
  let p := { p with lots.marksDropped := p.lots.marksDropped + 1 }.mark wMarksDropped
  if p.lots.markDropSticky then p else { p with lots.markDropSticky := true }.mark wSticky

/-- A raised mark waits, is dropped, or is resolved at once (R101, R103). -/
def Part.placeMark (p : Part) (m : Mark) : Part :=
  if p.hasOpenCandidate m.target then
    if p.lots.markQueue.length < 16 then { p with lots.markQueue := p.lots.markQueue ++ [m] } else p.dropMark
  else p.resolveMark m

/-- Raise one mark of a window (R99, R101). -/
def Part.raiseMark (p : Part) (window : Nat) (data : Word) : Part :=
  let m := p.tracker.rowIndex
  let lag := p.setup.unguarded.markLag
  if m.toNat < lag then p.markRecord window data m none false p.lots.openLot.id
  else
    p.placeMark
      { window := window, data := data, hitRow := m, hitLot := p.lots.openLot.id, target := m - BitVec.ofNat 32 lag }

/-- Re-examine the waiting marks in queue order (R104): those left without an open candidate are resolved and leave. -/
def Part.reexamine (p : Part) : List Mark → Part
  | [] => p
  | m :: ms =>
    if p.hasOpenCandidate m.target then
      { p with lots.markQueue := p.lots.markQueue ++ [m] }.reexamine ms
    else (p.resolveMark m).reexamine ms

/-- Re-examination of the whole queue at a hide's close (R104). -/
def Part.reexamineMarks (p : Part) : Part := { p with lots.markQueue := [] }.reexamine p.lots.markQueue

/-- A closed BELT hide joins the recent-hides list, the oldest leaving beyond 16 (R105). -/
def Part.addRecent (p : Part) (r : RecentHide) : Part :=
  { p with lots.recent := if 16 ≤ p.lots.recent.length then p.lots.recent.tail ++ [r] else p.lots.recent ++ [r] }

/-! ### Mark windows -/

/-- The byte address of a lane of the word with this word number. -/
def wordLane (wordAddr : BitVec 22) (l : Nat) : Nat := 4 * wordAddr.toNat + l

/-- A byte lies in the window (R97). -/
def Window.covers (w : Window) (a : Nat) : Bool := decide (w.base ≤ a) && decide (a < w.base + w.size)

/-- The beat matches the window: an enabled lane in it, and a write or a READ_WRITE window (R97). -/
def Window.matchesBeat (w : Window) (isWrite : Bool) (wordAddr : BitVec 22) (en : Lanes) : Bool :=
  (isWrite || w.readWrite) && [0, 1, 2, 3].any (fun l => en.getLsbD l && w.covers (wordLane wordAddr l))

/-- The lanes of a beat that are enabled and lie in the window. -/
def Window.lanes (w : Window) (wordAddr : BitVec 22) (en : Lanes) : Lanes :=
  let bit := fun l => en.getLsbD l && w.covers (wordLane wordAddr l)
  BitVec.ofBool (bit 3) ++ BitVec.ofBool (bit 2) ++ BitVec.ofBool (bit 1) ++ BitVec.ofBool (bit 0)

/-- The data of a mark: each window byte of an enabled lane in its own lane, 0 elsewhere (R99, 11.5). -/
def Window.markData (w : Window) (wordAddr : BitVec 22) (en : Lanes) (data : Word) : Word :=
  data &&& laneMask (w.lanes wordAddr en)

/-- The windows in force with their numbers. -/
def Part.numberedWindows (p : Part) : List (Nat × Window) := (List.range 4).zip p.setup.unguarded.windows

/-- The sticky hit flags of these window numbers. -/
def stickyBits (ws : List Nat) : BitVec 4 := ws.foldl (fun acc w => acc ||| ((1 : BitVec 4) <<< w)) 0

/-- Set sticky hit flags; the word is dirty if one changes (R98). -/
def Part.setSticky (p : Part) (bits : BitVec 4) : Part :=
  if p.lots.sticky ||| bits = p.lots.sticky then p
  else { p with lots.sticky := p.lots.sticky ||| bits }.mark wSticky

/-- A beat checked against the mark windows in force: sticky flags, then one mark per matched window that is enabled, in
ascending number (R97 to R99). -/
def Part.markBeat (p : Part) (isWrite : Bool) (wordAddr : BitVec 22) (en : Lanes) (data : Word) : Part :=
  let hit := p.numberedWindows.filter (fun w => w.2.matchesBeat isWrite wordAddr en)
  let armed := hit.filter (fun w => decide (w.2.enable ≠ .off))
  if armed.isEmpty then p
  else
    armed.foldl (fun p w => p.raiseMark w.1 (w.2.markData wordAddr en data)) (p.setSticky (stickyBits (hit.map Prod.fst)))

/-- CLEAR_STICKY (R98). -/
def Part.clearSticky (p : Part) : Part :=
  if p.lots.sticky = 0 && !p.lots.markDropSticky then p
  else { p with lots.sticky := 0, lots.markDropSticky := false }.mark wSticky

end Sys2Proof.Machine
end

