-- ==== Sys2Proof/Machine/Operands.lean ====
section
/-! DEFINITION. The operand forms: the fields of the setup words (11.2), what a COMMIT finds out of range (R178), the
addresses of a transaction's beats (R165), and the fields of a row-slot header (11.1) and of the argument words (R176). -/

namespace Sys2Proof.Machine

/-! ### Fields of the staged setup words (11.2) -/

/-- Staged word number `i` (byte offset ÷ 4). -/
def stagedWord (ws : List Word) (i : Nat) : Word := ws.getD i 0

/-- The unsigned field of `len` bits from bit `lo` on of staged word `i`. -/
def stagedField (ws : List Word) (i lo len : Nat) : Nat := ((stagedWord ws i).extractLsb' lo len).toNat

/-- One bit of staged word `i`. -/
def stagedBit (ws : List Word) (i lo : Nat) : Bool := (stagedWord ws i).getLsbD lo

/-- The beam mask of words 0x014 to 0x040: word `j` holds beams 32j to 32j+31. -/
def stagedMask (ws : List Word) : Beams :=
  (List.range 12).foldl (fun acc j => acc ||| ((stagedWord ws (5 + j)).setWidth 384 <<< (32 * j))) 0

def SellUnit.ofCode : Nat → SellUnit
  | 1 => .tft
  | 2 => .dm2
  | _ => .qft

def Rounding.ofCode : Nat → Rounding
  | 1 => .down
  | _ => .nearest

def WinEnable.ofCode : Nat → WinEnable
  | 1 => .global
  | 2 => .lot
  | _ => .off

/-- Window sizes: code 0, 1, 2 for 1, 2, 4 bytes. -/
def windowSize (code : Nat) : Nat := 2 ^ code

/-- The guarded fields of a staged copy that has passed validation. -/
def Guarded.ofStaged (ws : List Word) : Guarded :=
  { rowRingBase := stagedField ws 0 0 24
    slotCount := stagedField ws 1 0 7
    beams := stagedField ws 2 0 9
    stuckLimit := stagedField ws 4 0 14
    mask := stagedMask ws
    doubleThreshold := stagedField ws 18 0 16
    fillLimit := stagedField ws 19 0 12
    beamPitch := stagedField ws 20 0 15
    rowPitch := stagedField ws 21 0 15
    trim := (stagedWord ws 22).toInt
    unit := SellUnit.ofCode (stagedField ws 23 0 2)
    rounding := Rounding.ofCode (stagedField ws 23 8 2)
    sw := stagedField ws 24 0 5
    sl := stagedField ws 24 8 5
    lineOffset := stagedField ws 25 0 12 }

/-- Band `k` of a staged copy: low and high of word 0x070 + 4k, stamp-enable bit `k` of 0x090. -/
def Band.ofStaged (ws : List Word) (k : Nat) : Band :=
  { low := stagedField ws (28 + k) 0 16, high := stagedField ws (28 + k) 16 16, stamp := stagedBit ws 36 k }

/-- Window `w` of a staged copy, word 0x09C + 4w. -/
def Window.ofStaged (ws : List Word) (w : Nat) : Window :=
  { base := stagedField ws (39 + w) 0 24
    size := windowSize (stagedField ws (39 + w) 24 2)
    readWrite := stagedBit ws (39 + w) 26
    enable := WinEnable.ofCode (stagedField ws (39 + w) 28 2) }

/-- The unguarded fields of a staged copy that has passed validation. -/
def Unguarded.ofStaged (ws : List Word) : Unguarded :=
  { gapBridge := stagedField ws 3 0 3
    noiseLimit := stagedField ws 17 0 16
    smallLimit := stagedField ws 26 0 16
    oversizeLimit := stagedField ws 27 0 16
    bands := (List.range 8).map (Band.ofStaged ws)
    stamping := stagedBit ws 36 16
    packSize := stagedField ws 37 0 10
    markLag := stagedField ws 38 0 12
    windows := (List.range 4).map (Window.ofStaged ws)
    ringBase := stagedField ws 43 0 24
    ringSize := stagedField ws 44 0 11
    haltMs := stagedField ws 45 0 13
    parkS := stagedField ws 46 0 12
    framePeriod := stagedField ws 47 0 13 }

/-! ### Validation (R178) -/

/-- `lo ≤ v ≤ hi`. -/
def inRange (lo hi v : Nat) : Bool := decide (lo ≤ v) && decide (v ≤ hi)

/-- A row ring whose slot count is not 0 runs past byte address 0xFFFFFF. -/
def rowRingPast (ws : List Word) : Bool :=
  decide (stagedField ws 1 0 7 ≠ 0) && decide (0x1000000 < stagedField ws 0 0 24 + 256 * stagedField ws 1 0 7)

/-- A record ring whose size is not 0 runs past byte address 0xFFFFFF. -/
def recordRingPast (ws : List Word) : Bool :=
  decide (stagedField ws 44 0 11 ≠ 0) && decide (0x1000000 < stagedField ws 43 0 24 + 64 * stagedField ws 44 0 11)

/-- A window's base is a multiple of its size, and its size and enable codes name settings. -/
def windowGood (ws : List Word) (w : Nat) : Bool :=
  decide (stagedField ws (39 + w) 24 2 ≤ 2) && decide (stagedField ws (39 + w) 28 2 ≤ 2) &&
    decide (stagedField ws (39 + w) 0 24 % windowSize (stagedField ws (39 + w) 24 2) = 0)

/-- The fields that have a range to meet, in ascending word order, with whether each meets it. A ring that runs past the end
of the address space is charged to its base or to its length: Config says which (log entry 12). -/
def stagedChecks (ws : List Word) : List (Nat × Bool) :=
  [(0, decide (stagedField ws 0 0 24 % 256 = 0) && !(rowRingPast ws && Config.rowRingPastAtBase)),
   (1, (decide (stagedField ws 1 0 7 = 0) || inRange 4 64 (stagedField ws 1 0 7)) &&
     !(rowRingPast ws && !Config.rowRingPastAtBase)),
   (2, inRange 64 384 (stagedField ws 2 0 9) && decide (stagedField ws 2 0 9 % 32 = 0)),
   (4, inRange 256 16383 (stagedField ws 4 0 14)),
   (20, inRange 1000 20000 (stagedField ws 20 0 15)),
   (21, inRange 1000 20000 (stagedField ws 21 0 15)),
   (22, decide (-500 ≤ (stagedWord ws 22).toInt) && decide ((stagedWord ws 22).toInt ≤ 500)),
   (23, decide (stagedField ws 23 0 2 ≤ 2) && decide (stagedField ws 23 8 2 ≤ 1)),
   (24, inRange 2 16 (stagedField ws 24 0 5) && inRange 2 16 (stagedField ws 24 8 5)),
   (25, inRange 32 4095 (stagedField ws 25 0 12)),
   (37, decide (stagedField ws 37 0 10 ≤ 999)),
   (39, windowGood ws 0), (40, windowGood ws 1), (41, windowGood ws 2), (42, windowGood ws 3),
   (43, decide (stagedField ws 43 0 24 % 64 = 0) && !(recordRingPast ws && Config.recordRingPastAtBase)),
   (44, (decide (stagedField ws 44 0 11 = 0) || inRange 16 1024 (stagedField ws 44 0 11)) &&
     !(recordRingPast ws && !Config.recordRingPastAtBase)),
   (45, inRange 50 5000 (stagedField ws 45 0 13)),
   (46, inRange 10 3600 (stagedField ws 46 0 12)),
   (47, inRange 200 5000 (stagedField ws 47 0 13) && decide (stagedField ws 47 0 13 % 100 = 0))]

/-- The first field out of range, as a word number, or none if the staged copy is valid (R178). -/
def firstOutOfRange (ws : List Word) : Option Nat :=
  ((stagedChecks ws).find? (fun c => !c.2)).map Prod.fst

/-! ### Beat addresses (R165) -/

/-- The word address of beat `k`: the start with its two lowest bits cleared plus 4k, wrapping inside its 32-byte block. -/
def beatAddr (start : BitVec 24) (k : Nat) : BitVec 24 :=
  (start &&& 0xFFFFE0) ||| ((start + BitVec.ofNat 24 (4 * k)) &&& 0x1C)

/-- The word addresses of every beat of a transaction. -/
def beatAddrs (t : Transaction) : List (BitVec 24) := (List.range t.beats.length).map (beatAddr t.start)

/-! ### Row slots (11.1) -/

/-- Words per sub-row. -/
def wordsPerSubRow (beams : Nat) : Nat := beams / 32

/-- Sequence number of a header. -/
def headerSeq (data : Word) : Half := data.extractLsb' 0 16

/-- Marker byte of a header. -/
def headerMarker (data : Word) : Byte := data.extractLsb' 16 8

/-- SYNC flag of a header. -/
def headerSync (data : Word) : Bool := data.getLsbD 24

/-! ### Commands and their arguments (R176, 11.2) -/

/-- Command code, bits 3:0 of the command word. -/
def cmdCode (data : Word) : BitVec 4 := data.extractLsb' 0 4

/-- Command tag, bits 31:16 of the command word. -/
def cmdTag (data : Word) : Half := data.extractLsb' 16 16

/-- The low 16 bits of an argument: a lot id, or the units of a manual hide. -/
def argLow (a : Word) : Half := a.extractLsb' 0 16

/-- The band override of argument 2: bits 7:0 when bit 8 says it is present. -/
def argOverride (a : Word) : Option Nat := if a.getLsbD 8 then some (a.extractLsb' 0 8).toNat else none

end Sys2Proof.Machine
end

