-- ==== Sys2Proof/Machine/Setup.lean ====
section
/-! DEFINITION. The setup page controller (chapter 10) but for the commands it passes on: applying a guarded set, the
setup-quiet condition, the pending snapshot, the command result. -/

namespace Sys2Proof.Machine

/-- Set the command result; its word is dirty when it changes (R177). -/
def Part.setResult (p : Part) (r : CmdResult) : Part :=
  if p.setup.result = r then p else { p with setup.result := r }.mark wResult

/-- A command's result with offset 0 (R177). -/
def Part.answer (p : Part) (tag : Half) (code : BitVec 4) (r : ResultCode) : Part :=
  p.setResult { tag := tag, code := code, result := r, offset := 0 }

/-- Set or discard the pending snapshot; the commit-state word is dirty when the commit state changes (R180, R184). -/
def Part.setSnapshot (p : Part) (s : Option Snapshot) : Part :=
  let p' := { p with setup.snapshot := s }
  if p.setup.snapshot.isSome = s.isSome then p' else p'.mark wCommit

/-- Setup-quiet (R180). -/
def Part.setupQuiet (p : Part) : Bool := p.trackerQuiet && p.jobs.isEmpty && p.intake.queue.isEmpty

/-- A row-ring reconfiguration (R20). -/
def Part.reconfigureRowRing (p : Part) : Part :=
  { p with
    intake.buffers := []
    intake.queue := []
    intake.syncPending := true
    intake.stuck := List.replicate 384 0 }

/-- The auto-mask and the stuck-run counters are cleared (R16). -/
def Part.clearAutoMask (p : Part) : Part :=
  { p with intake.autoMask := 0, intake.stuck := List.replicate 384 0 }

/-- Every lot alive gets CAL_CHANGED (R93, R181). -/
def Part.flagCalChanged (p : Part) : Part :=
  { p with
    lots.openLot.calChanged := true
    lots.closing := p.lots.closing.map (fun l => { l with calChanged := true }) }

/-- The row ring base, the slot count or the beam count differ (R20). -/
def Guarded.geometryDiffers (a b : Guarded) : Bool :=
  decide (a.rowRingBase ≠ b.rowRingBase) || decide (a.slotCount ≠ b.slotCount) || decide (a.beams ≠ b.beams)

/-- Apply a guarded set, with its effects in the blocks that own the state (R181). The masks are compared over all 384 beams:
entries at or above B have no effect by R13, and R16 does not say whether a change in them alone clears (log entry 37). -/
def Part.applyGuarded (p : Part) (g : Guarded) : Part :=
  let old := p.setup.guarded
  let p := { p with setup.guarded := g }.flagCalChanged
  let p := if old.geometryDiffers g then p.reconfigureRowRing else p
  if old.mask ≠ g.mask then p.clearAutoMask else p

/-- At a setup-quiet moment the pending snapshot applies, COMMIT_APPLIED is raised and the commit state is NONE (R181). -/
def Part.applySnapshotIfQuiet (p : Part) : Part :=
  match p.setup.snapshot with
  | none => p
  | some s =>
    if p.setupQuiet then ((p.applyGuarded s.fields).raise .commitApplied (s.tag.setWidth 32)).setSnapshot none else p

/-- Merge a beat into staged word `i`; the setup area's other words hold no staged field (R175). -/
def Part.writeStaged (p : Part) (i : Nat) (en : Lanes) (data : Word) : Part :=
  { p with setup.staged := p.setup.staged.set i (mergeLanes (stagedWord p.setup.staged i) data en) }

/-- Merge a beat into a held argument (R176). -/
def Part.writeArgument (p : Part) (which : ArgWord) (en : Lanes) (data : Word) : Part :=
  match which with
  | .one => { p with setup.arg1 := mergeLanes p.setup.arg1 data en }
  | .two => { p with setup.arg2 := mergeLanes p.setup.arg2 data en }

end Sys2Proof.Machine
end

