-- ==== Sys2Proof/Machine/Flags.lean ====
section
/-! DEFINITION. Hide flags (2.6): their union, the flags a segment's row gives its owner, and the ones that make a hide REVIEW. -/

namespace Sys2Proof.Machine

/-- Union of two flag sets (R34). -/
def HideFlags.union (a b : HideFlags) : HideFlags :=
  { double := a.double || b.double
    spillJoined := a.spillJoined || b.spillJoined
    fragment := a.fragment || b.fragment
    noisy := a.noisy || b.noisy
    holeLimit := a.holeLimit || b.holeLimit
    gapRows := a.gapRows || b.gapRows
    edge := a.edge || b.edge
    maskedBeams := a.maskedBeams || b.maskedBeams
    truncated := a.truncated || b.truncated }

/-- The flags that make a hide REVIEW whatever its size (R75). -/
def HideFlags.review (f : HideFlags) : Bool := f.double || f.spillJoined || f.edge || f.truncated

/-- The owner of a segment that touches beam 0 or beam B − 1 gets EDGE (R39), of a segment of a GAP row GAP_ROWS (R41). -/
def HideFlags.addRow (f : HideFlags) (touchesEdge gapRow : Bool) : HideFlags :=
  { f with edge := f.edge || touchesEdge, gapRows := f.gapRows || gapRow }

/-- NOISY is set when the noise count exceeds a noise limit that is not 0 (R40). -/
def HideFlags.addNoisy (f : HideFlags) (noise limit : Nat) : HideFlags :=
  { f with noisy := f.noisy || (decide (limit ≠ 0) && decide (limit < noise)) }

/-- A MASKED_BEAMS notice is taken: every open hide is flagged (R15). -/
def Hide.flagMasked (h : Hide) : Hide := { h with flags.maskedBeams := true }

/-- The tracker takes a MASKED_BEAMS notice (R15). -/
def Part.takeNotice (p : Part) : Part :=
  { p with
    tracker.table := p.tracker.table.map (Option.map Hide.flagMasked)
    tracker.spill := p.tracker.spill.map Hide.flagMasked
    tracker.noticeWaiting := false }

/-- A waiting MASKED_BEAMS notice is taken, if there is one (R15, R23). -/
def Part.takeWaitingNotice (p : Part) : Part := if p.tracker.noticeWaiting then p.takeNotice else p

/-- A MASKED_BEAMS notice reaches the tracker: taken at once, or at the end of the pass in progress (R15). -/
def Part.giveNotice (p : Part) : Part :=
  if p.tracker.pass.isSome then { p with tracker.noticeWaiting := true } else p.takeNotice

end Sys2Proof.Machine
end

