-- ==== Sys2Proof/Machine/Stamp.lean ====
section
/-! DEFINITION. The stamp scheduler's job queue (chapter 6) and the head state machine (chapter 7), which drive each other:
naming and preparing jobs, head state entries, strike rows, withdrawals, faults, final outcomes of jobs. -/

namespace Sys2Proof.Machine

/-! ### Held commands (R133, 7.2) -/

/-- Set the held command of a slot: its latest status becomes NONE when the word changes to one not last sent (R133). -/
def Slot.hold (s : Slot) (c : SlotCmd) : Slot :=
  { s with held := c, latest := if c = s.held ∨ c = s.lastSent then s.latest else .none }

/-- Set the held commands of the six slots; none leaves a slot's command as it is ("kept" in 7.2). -/
def holdAll (slots : List Slot) (cmds : List (Option SlotCmd)) : List Slot :=
  List.zipWith (fun s c => c.elim s s.hold) slots cmds

/-- The same command for the four wheels. -/
def wheels (carriage wheel hammer : Option SlotCmd) : List (Option SlotCmd) :=
  [carriage, wheel, wheel, wheel, wheel, hammer]

/-- The commands each head state sets on entry (7.2); PREPARING's are formed from the job in hand. -/
def entryCommands (st : HeadState) (job : Option InHand) : List (Option SlotCmd) :=
  match st with
  | .unknown | .faulted => wheels (some .hold) (some .hold) (some .safe)
  | .homing => wheels (some .home) (some .home) (some .safe)
  | .ready => wheels none none (some .safe)
  | .preparing =>
    match job with
    | some j => [some (.goto j.target), some (.set j.symbols.w1), some (.set j.symbols.w2), some (.set j.symbols.w3),
        some (.set j.symbols.w4), some .safe]
    | none => wheels none none (some .safe)
  | .armed => wheels none none (some .arm)
  | .striking => wheels none none (some .strike)
  | .parking => wheels (some .park) (some (.set blankSymbol)) (some .safe)
  | .headParked => wheels none none none

/-- Enter a head state: the state, its commands, and its status word when it changes (R136, R151). -/
def Part.enterHead (p : Part) (st : HeadState) : Part :=
  let p' := { p with
    head.state := st
    head.slots := holdAll p.head.slots (entryCommands st p.head.inHand) }
  if p.head.state = st then p' else p'.mark wBelt

/-- The job in hand is dropped. -/
def Part.dropInHand (p : Part) : Part := { p with head.inHand := none }

/-! ### The job queue -/

/-- How far a strike row lies ahead of row `r` (R116). -/
def strikeAhead (r : Word) (j : Job) : Nat := (j.strikeRow - r).toNat

/-- Job `a` stands before a new job `b`: an earlier strike row, or the same one and a target column not greater (R116). -/
def jobBefore (r : Word) (a b : Job) : Bool :=
  decide (strikeAhead r a < strikeAhead r b) || (decide (strikeAhead r a = strikeAhead r b) && decide (a.target ≤ b.target))

/-- Place a job among the waiting jobs (R116); it is QUEUED. -/
def Part.placeJob (p : Part) (j : Job) : Part :=
  { p with sched.waiting := insertBy (jobBefore p.tracker.rowIndex) { j with state := .queued } p.sched.waiting }

/-- The strike row is reached at row `r` (R120). -/
def Job.reached (j : Job) (r : Word) : Bool := atOrBefore j.strikeRow r

/-- The current job's state is set (R118). -/
def Part.setJobState (p : Part) (st : JobState) : Part :=
  { p with sched.current := p.sched.current.map (fun j => { j with state := st }) }

/-- The head is one a job may be named for (R117). -/
def Part.headTakesJobs (p : Part) : Bool := decide (p.head.state = .homing) || decide (p.head.state = .ready)

/-- Name the first waiting job current when none is current and the head is HOMING or READY (R117). -/
def Part.nameJob (p : Part) : Part :=
  match p.sched.current, p.sched.waiting with
  | none, j :: rest => if p.headTakesJobs then { p with sched.current := some j, sched.waiting := rest } else p
  | _, _ => p

/-- In READY the link takes the current QUEUED job as job in hand and enters PREPARING (R144, R118). -/
def Part.startJob (p : Part) : Part :=
  match p.sched.current with
  | some j =>
    if p.head.state = .ready ∧ j.state = .queued then
      ({ p with
        head.inHand := some { number := j.info.number, target := j.target, symbols := j.symbols } }.enterHead
          .preparing).setJobState .preparing
    else p
  | none => p

/-- The naming test and what follows from it (R117, R144). -/
def Part.nameAndStart (p : Part) : Part := p.nameJob.startJob

/-! ### Final outcomes of jobs -/

/-- A job taken out of the queue has its final outcome: its record is released, a snapshot may find the part setup-quiet, and
the closing test it makes due follows (R125, R126, R181, R89; order: log entry 21). -/
def Part.finishJob (p : Part) (j : Job) (o : StampOutcome) : Part :=
  ((p.release j.info o (some j.strikeRow)).applySnapshotIfQuiet).closingTestFor j.info.lot

/-- The current job, if any, leaves with this outcome. -/
def Part.finishCurrent (p : Part) (o : StampOutcome) : Part :=
  match p.sched.current with
  | some j => { p with sched.current := none }.finishJob j o
  | none => p

/-- Every waiting job leaves as MISSED, in queue order (R127, R129). -/
def Part.missWaiting (p : Part) (r : MissReason) : List Job → Part
  | [] => p
  | j :: js => ({ p with sched.waiting := js }.finishJob j (.missed r)).missWaiting r js

/-- Every job leaves as MISSED, the current job first (R127). -/
def Part.missAll (p : Part) (r : MissReason) : Part :=
  let p := p.finishCurrent (.missed r)
  p.missWaiting r p.sched.waiting

/-- The waiting jobs whose strike rows are reached leave as MISSED(PASSED), in queue order; `kept` are the ones passed over,
newest first (R121). -/
def Part.missPassed (p : Part) (kept : List Job) : List Job → Part
  | [] => p
  | j :: js =>
    if j.reached p.tracker.rowIndex then
      ({ p with sched.waiting := kept.reverse ++ js }.finishJob j (.missed .passed)).missPassed kept js
    else p.missPassed (j :: kept) js

/-! ### Head state entries -/

/-- The head enters PARKING: the job in hand is dropped, and a current job that is not STRIKING returns to waiting (R148, R128). -/
def Part.enterParking (p : Part) : Part :=
  let p := p.dropInHand.enterHead .parking
  match p.sched.current with
  | some j => if j.state = .striking then p else { p with sched.current := none }.placeJob j
  | none => p

/-- The head enters READY, or PARKING when the belt is PARKED (R144); no job is named yet. -/
def Part.enterReady (p : Part) : Part :=
  if p.belt.present = .parked then p.enterParking else p.enterHead .ready

/-- The parity runs are set to 0 (R143). -/
def Part.clearRuns (p : Part) : Part :=
  { p with head.slots := p.head.slots.map (fun s => { s with run := 0 }) }

/-- The causes of an entry to HOMING (R143). -/
inductive HomingCause where
  | wake
  | headReset
  deriving DecidableEq, Repr

/-- What the scheduler does with the current job at an entry to HOMING (R118). -/
def Part.currentAtHoming (p : Part) : HomingCause → Part
  | .wake => p
  | .headReset =>
    match p.sched.current with
    | some j => if j.state = .striking then p.finishCurrent (.missed .headFault) else p.setJobState .queued
    | none => p

/-- The head enters HOMING (R143, R149, R150), and the next job may be named (R117). -/
def Part.enterHoming (p : Part) (cause : HomingCause) : Part :=
  ((p.dropInHand.clearRuns.enterHead .homing).currentAtHoming cause).nameAndStart

/-- The head enters FAULTED: one HEAD_FAULT event, one link error, every job MISSED(HEAD_FAULT) (R141, R127). -/
def Part.enterFaulted (p : Part) (slot : Nat) (c : FaultCode) : Part :=
  let p := p.raise .headFault (headFaultArg slot c)
  let p := { p with head.errors := p.head.errors + 1 }.mark wLinkErrors
  (p.dropInHand.enterHead .faulted).missAll .headFault

/-- A withdrawal: in PREPARING and ARMED the job in hand is dropped and the head returns to READY; elsewhere nothing (R147). -/
def Part.withdraw (p : Part) : Part :=
  if p.head.state = .preparing ∨ p.head.state = .armed then p.dropInHand.enterReady else p

/-- The strike request for a job (R123, R146): the job is STRIKING; an ARMED link with this job in hand enters STRIKING. -/
def Part.requestStrike (p : Part) (j : Job) : Part :=
  let p := p.setJobState .striking
  if p.head.state = .armed ∧ p.head.inHand.map InHand.number = some j.info.number then
    { p with head.window := 0 }.enterHead .striking
  else p

/-- The current job's part in an increment that reaches its strike row (R121). -/
def Part.settleCurrent (p : Part) : Part :=
  match p.sched.current with
  | none => p
  | some j =>
    if j.reached p.tracker.rowIndex then
      match j.state with
      | .queued => p.finishCurrent (.missed .notReady)
      | .preparing => (p.finishCurrent (.missed .notReady)).withdraw
      | .armed => p.requestStrike j
      | .striking => p
    else p

/-- The scheduler's whole response to a row-index increment (R121): the current job, the waiting jobs passed, then naming. -/
def Part.settleIncrement (p : Part) : Part :=
  let p := p.settleCurrent
  (p.missPassed [] p.sched.waiting).nameAndStart

/-- Column heights set to 0 (R110). -/
def Part.clearHeights (p : Part) : Part := { p with sched.heights := p.sched.heights.map (fun _ => 0) }

/-- The current job's part in RESTART: a STRIKING job stays; a PREPARING or ARMED one is withdrawn (R129, R124). -/
def Part.restartCurrent (p : Part) : Part :=
  match p.sched.current with
  | none => p
  | some j =>
    match j.state with
    | .striking => p
    | .preparing | .armed => (p.finishCurrent (.missed .restart)).withdraw
    | .queued => p.finishCurrent (.missed .restart)

/-- The scheduler's part of RESTART (R129). No job is named until every waiting job is MISSED, so the READY report of a withdrawal
(R147) starts none: R117 and R124 would let it name the next one first, which is then MISSED as well (log entry 41). -/
def Part.schedulerRestart (p : Part) : Part :=
  let p := p.restartCurrent
  (p.missWaiting .restart p.sched.waiting).clearHeights

/-! ### Making a job -/

/-- The place of a stamp for a site: the left of the two middle columns when SW is even (R114). -/
def targetColumn (siteCol sw : Nat) : Nat := siteCol + (sw - 1) / 2

/-- The strike row of a site (R114): site row plus D, modulo 2^32. -/
def strikeRowOf (siteRow : Word) (lineOffset : Nat) : Word := siteRow + BitVec.ofNat 32 lineOffset

/-- Make a job of a hide with this site, and name it if the head is free (R114, R117). Its symbols are all set (R74). -/
def Part.makeJob (p : Part) (info : HideInfo) (site : Site) (symbols : Symbols) : Part :=
  (p.placeJob
    { info := info
      strikeRow := strikeRowOf site.row p.setup.guarded.lineOffset
      target := targetColumn site.col p.setup.guarded.sw
      symbols := symbols
      state := .queued }).nameAndStart

/-! ### Orders from the belt activity controller -/

/-- The park order (R148). -/
def Part.parkOrder (p : Part) : Part :=
  match p.head.state with
  | .ready | .preparing | .armed => p.enterParking
  | .unknown | .homing | .striking | .faulted | .parking | .headParked => p

/-- The wake order (R149). -/
def Part.wakeOrder (p : Part) : Part :=
  match p.head.state with
  | .unknown | .parking | .headParked => p.enterHoming .wake
  | .homing | .ready | .preparing | .armed | .striking | .faulted => p

end Sys2Proof.Machine
end

