-- ==== Sys2Proof/Machine/Belt.lean ====
section
/-! DEFINITION. The belt activity controller (chapter 8): restart signals, the two timers' expiries, what a COMMIT of new
lengths does, and the passing of a microsecond. -/

namespace Sys2Proof.Machine

/-- A transition of the belt state: the last state becomes the state left (R152). -/
def Part.moveBelt (p : Part) (b : BeltState) : Part :=
  { p with belt.last := some p.belt.present, belt.present := b }.mark wBelt

/-- The halt timer is started with elapsed time 0 (R153). -/
def Part.startHalt (p : Part) : Part := { p with belt.halt := some 0 }

/-- A restart signal from row intake (R159). -/
def Part.restartSignal (p : Part) : Part :=
  match p.belt.present with
  | .running => p.startHalt
  | .halted => { p.moveBelt .running with belt.park := none }.startHalt
  | .parked => (p.moveBelt .running).startHalt.wakeOrder

/-- Halt-timer expiry, taken in RUNNING (R156). -/
def Part.haltExpiry (p : Part) : Part :=
  match p.belt.present with
  | .running => { p.moveBelt .halted with belt.halt := none, belt.park := some 0 }
  | .halted | .parked => p

/-- HALT_TIMER_EXPIRY as a command stands for the halt time gone by (log entry 4). It finds nothing to expire when the halt timer is
stopped, or was started in this same moment by a restart signal taken first: then the expiry does not happen (R156). -/
def Part.takeHaltExpiry (p : Part) : Part := if p.belt.halt.any (fun e => decide (0 < e)) then p.haltExpiry else p

/-- Park-timer expiry, taken in HALTED (R157). -/
def Part.parkExpiry (p : Part) : Part :=
  match p.belt.present with
  | .halted => { p.moveBelt .parked with belt.park := none }.parkOrder
  | .running | .parked => p

/-- The halt time in force, in microseconds. -/
def Part.haltLength (p : Part) : Nat := 1000 * p.setup.unguarded.haltMs

/-- The park time in force, in microseconds. -/
def Part.parkLength (p : Part) : Nat := 1000000 * p.setup.unguarded.parkS

/-- A running timer has reached its length. -/
def timerDue (timer : Option Nat) (length : Nat) : Bool := timer.any (fun e => decide (length ≤ e))

/-- A COMMIT has applied timer lengths: a timer whose length changed and whose elapsed time has reached the new one expires
at once (R155). `oldHalt` and `oldPark` are the lengths before. -/
def Part.timersAfterCommit (p : Part) (oldHalt oldPark : Nat) : Part :=
  let p := if p.haltLength ≠ oldHalt ∧ timerDue p.belt.halt p.haltLength then p.haltExpiry else p
  if p.parkLength ≠ oldPark ∧ timerDue p.belt.park p.parkLength then p.parkExpiry else p

/-- One microsecond passes (R152: a running timer counts the time since it was started; log entry 3). A timer that reaches its
length expires. -/
def Part.tick (p : Part) : Part :=
  let p := { p with belt.halt := p.belt.halt.map (· + 1), belt.park := p.belt.park.map (· + 1) }
  if timerDue p.belt.halt p.haltLength then p.haltExpiry
  else if timerDue p.belt.park p.parkLength then p.parkExpiry
  else p

end Sys2Proof.Machine
end

