-- ==== Sys2Proof/Machine/Frames.lean ====
section
/-! DEFINITION. The frames of the head link (7.1, 7.3): the boundary that sends one, the judging of the status words it brings
back, and what the head state machine makes of them. -/

namespace Sys2Proof.Machine

/-! ### Frame boundary -/

/-- A used slot's held command differs from the one last sent (R135). -/
def Slot.changed (s : Slot) : Bool := decide (s.held ≠ s.lastSent)

/-- What a frame shifts out: the six used slots' words, then HTX undriven in slots 6 and 7 (R134). -/
def frameOf (slots : List Slot) : Frame :=
  { latched := slots.map Slot.held, htx := slots.map (fun s => some s.held.word) ++ [none, none] }

/-- The frame sequencer at a boundary (R132, R135): the frame period and the gate mode are read; a frame is sent if frames are
continuous or a held command has changed. -/
def Part.boundary (p : Part) : Part :=
  let gated := decide (p.belt.present = .parked)
  let p := { p with head.framePeriod := p.setup.unguarded.framePeriod, head.gated := gated }
  if gated && !p.head.slots.any Slot.changed then p
  else
    { p with
      head.frame := some (frameOf p.head.slots)
      head.slots := p.head.slots.map (fun s => { s with lastSent := s.held }) }

/-! ### Judging (R138 to R140) -/

/-- The target of a move command as an IDLE value; HOLD, SAFE, ARM and STRIKE have none (R140). `slot` 0 is the carriage. -/
def SlotCmd.targetValue (slot : Nat) : SlotCmd → Option (BitVec 12)
  | .goto col => some (BitVec.ofNat 12 col)
  | .set symbol => some (BitVec.ofNat 12 symbol)
  | .home => some (if slot = 0 then carriageHome else BitVec.ofNat 12 blankSymbol)
  | .park => some carriagePark
  | .hold | .safe | .arm | .strike => none

/-- In STRIKING the hammer's count is neither the base nor the base plus one (R140). -/
def countBad (base : Option (BitVec 12)) (v : BitVec 12) : Bool :=
  match base with
  | some b => decide (v ≠ b) && decide (v ≠ b + 1)
  | none => true

/-- The fault condition a decoded status is in, if any (R140). `held` and `latched` are the slot's commands; a MISMATCH needs
them equal, since only then was the module sent the held command (log entry 18). -/
def statusFault (slot : Nat) (head : HeadState) (base : Option (BitVec 12)) (held latched : SlotCmd) :
    SlotStatus → Option FaultCode
  | .fault code => some (.module code)
  | .idle v =>
    if latched = held ∧ (SlotCmd.targetValue slot held).any (fun t => decide (t ≠ v)) then some .mismatch
    else if slot = 5 ∧ head = .striking ∧ countBad base v then some .count
    else none
  | .none | .busy => none

/-- What judging one slot's word gives: the slot, and the fault condition it is in. -/
structure Judged where
  slot : Slot
  fault : Option FaultCode
  /-- The decoded status, if the word passed parity. -/
  status : Option SlotStatus
  deriving DecidableEq, Repr

/-- Judge the word of a used slot (R138). In FAULTED no parity run is counted (log entry 19). -/
def judgeSlot (i : Nat) (head : HeadState) (base : Option (BitVec 12)) (s : Slot) (latched : SlotCmd) (w : BitVec 16) : Judged :=
  let counts := decide (head ≠ .faulted)
  if w = 0xFFFF then
    { slot := if counts then { s with run := 0 } else s, fault := some .absent, status := none }
  else if !parityGood w then
    if counts then
      if 2 ≤ s.run then { slot := { s with run := 0 }, fault := some .parity, status := none }
      else { slot := { s with run := s.run + 1 }, fault := none, status := none }
    else { slot := s, fault := none, status := none }
  else
    let st := decodeStatus w
    let s := if counts then { s with run := 0 } else s
    let s := if latched = s.held then { s with latest := st } else s
    { slot := s, fault := statusFault i head base s.held latched st, status := some st }

/-- Judge the used slots in slot order; `i` is the number of the first. -/
def judgeAll (head : HeadState) (base : Option (BitVec 12)) : Nat → List Slot → List SlotCmd → List (BitVec 16) → List Judged
  | i, s :: ss, c :: cs, w :: ws => judgeSlot i head base s c w :: judgeAll head base (i + 1) ss cs ws
  | _, _, _, _ => []

/-- The lowest-numbered slot in a fault condition (R141). -/
def firstFault : Nat → List Judged → Option (Nat × FaultCode)
  | _, [] => none
  | i, j :: js =>
    match j.fault with
    | some c => some (i, c)
    | none => firstFault (i + 1) js

/-- The states in which fault conditions are acted on (R140). -/
def HeadState.actsOnFaults : HeadState → Bool
  | .unknown | .faulted => false
  | .homing | .ready | .preparing | .armed | .striking | .parking | .headParked => true

/-! ### The head state machine at the end of a frame -/

/-- A slot's latest status is IDLE at this value. -/
def Slot.idleAt (s : Slot) (v : BitVec 12) : Bool := decide (s.latest = .idle v)

/-- A slot's latest status is IDLE. -/
def Slot.isIdle (s : Slot) : Bool :=
  match s.latest with
  | .idle _ => true
  | .none | .busy | .fault _ => false

/-- The carriage and the four wheels are IDLE at these values. -/
def movesDone (slots : List Slot) (carriage w1 w2 w3 w4 : BitVec 12) : Bool :=
  match slots with
  | [c, a, b, d, e, _] => c.idleAt carriage && a.idleAt w1 && b.idleAt w2 && d.idleAt w3 && e.idleAt w4
  | _ => false

/-- The hammer is IDLE, with any count. -/
def hammerIdle (slots : List Slot) : Bool := (slots.getD 5 (Slot.powerOn .safe)).isIdle

/-- A symbol as an IDLE value. -/
def symValue (s : Nat) : BitVec 12 := BitVec.ofNat 12 s

/-- Carriage at `pos`, wheels blank, hammer IDLE: at home (R143) or in the park positions (R148). -/
def restingAt (slots : List Slot) (pos : BitVec 12) : Bool :=
  movesDone slots pos (symValue blankSymbol) (symValue blankSymbol) (symValue blankSymbol) (symValue blankSymbol) &&
    hammerIdle slots

/-- Carriage and wheels are at the targets of the job in hand (R145). -/
def Part.atTargets (p : Part) : Bool :=
  match p.head.inHand with
  | some j =>
    movesDone p.head.slots (BitVec.ofNat 12 j.target) (symValue j.symbols.w1) (symValue j.symbols.w2)
      (symValue j.symbols.w3) (symValue j.symbols.w4)
  | none => false

/-- A STRIKING current job leaves with this outcome; any other stays (R123). -/
def Part.finishStriking (p : Part) (o : StampOutcome) : Part :=
  match p.sched.current with
  | some j => if j.state = .striking then p.finishCurrent o else p
  | none => p

/-- The strike is confirmed (R123, R146): the hammer count becomes the reported one, the job is STAMPED and leaves, the head
enters READY and the next job is named. -/
def Part.confirmStrike (p : Part) (count : BitVec 12) : Part :=
  let p := { p with head.hammerCount := some count }.finishStriking .stamped
  p.dropInHand.enterReady.nameAndStart

/-- The hammer's held command returns to ARM when the STRIKE frame has ended (R137). -/
def Part.holdArm (p : Part) : Part :=
  { p with head.slots := holdAll p.head.slots (wheels none none (some .arm)) }

/-- The STRIKE frame has ended: the hammer's held command is no longer STRIKE (R137). -/
def Part.strikeSent (p : Part) : Bool :=
  decide ((p.head.slots.getD 5 (Slot.powerOn .safe)).held ≠ .strike)

/-- The hammer's status confirms the strike: IDLE at the base plus one (R146). -/
def confirms (base : Option (BitVec 12)) (status : Option SlotStatus) : Option (BitVec 12) :=
  match base, status with
  | some b, some (.idle v) => if v = b + 1 then some v else none
  | _, _ => none

/-- The frame just judged comes after the STRIKE frame: a STRIKE has been sent and this frame did not carry it (R146). -/
def Part.afterStrikeFrame (p : Part) (latched : List SlotCmd) : Bool :=
  decide (p.head.state = .striking) && p.strikeSent && decide (latched.getD 5 .safe ≠ .strike)

/-- What the head state machine does when a frame found no fault condition. `confirmed` is the count that confirms the strike. -/
def Part.headActs (p : Part) (confirmed : Option (BitVec 12)) : Part :=
  match p.head.state with
  | .homing => if restingAt p.head.slots carriageHome then p.enterReady.nameAndStart else p
  | .preparing => if p.atTargets then (p.enterHead .armed).setJobState .armed else p
  | .striking =>
    match confirmed with
    | some count => p.confirmStrike count
    | none => p
  | .parking => if restingAt p.head.slots carriagePark then p.enterHead .headParked else p
  | .unknown | .ready | .armed | .faulted | .headParked => p

/-- The code a slot-5 condition is reported with when the strike window runs out in the same frame (log entry 13). -/
def Part.withNoStrike (p : Part) (fault : Option (Nat × FaultCode)) : Part × Option (Nat × FaultCode) :=
  match fault with
  | none => (p, some (5, .noStrike))
  | some (i, c) =>
    if i = 5 then
      ({ p with free := p.free + 1 }, some (5, if Config.noStrikeFirst p.free then .noStrike else c))
    else (p, some (i, c))

/-- The judged slots are kept and the frame is over (R132, R138). -/
def Part.keepJudged (p : Part) (judged : List Judged) : Part :=
  { p with head.slots := judged.map Judged.slot, head.frame := none }

/-- Outside STRIKING an IDLE hammer that answered the held command sets the hammer count (R138). In STRIKING the frames after the
STRIKE frame are counted, and at the end of the STRIKE frame the held word returns to ARM (R146, R137). -/
def Part.countFrame (p : Part) (after : Bool) (latched : List SlotCmd) (hammer : Option SlotStatus) : Part :=
  if p.head.state = .striking then
    if after then { p with head.window := p.head.window + 1 }
    else if latched.getD 5 .safe = .strike then p.holdArm
    else p
  else
    match hammer with
    | some (.idle v) =>
      if latched.getD 5 .safe = (p.head.slots.getD 5 (Slot.powerOn .safe)).held then { p with head.hammerCount := some v } else p
    | _ => p

/-- The strike window has run out: the 16th frame after the STRIKE frame has ended without a confirmation (R146). -/
def Part.windowOver (p : Part) (after : Bool) (confirmed : Option (BitVec 12)) : Bool :=
  after && confirmed.isNone && decide (16 ≤ p.head.window)

/-- With a fault condition the head enters FAULTED, else the head state machine acts (R141). -/
def Part.actOn (confirmed : Option (BitVec 12)) : Part × Option (Nat × FaultCode) → Part
  | (p, some (i, c)) => p.enterFaulted i c
  | (p, none) => p.headActs confirmed

/-- What a judged frame makes of the head, in a state in which fault conditions are acted on (R140, R141). -/
def Part.actOnFrame (p : Part) (after : Bool) (confirmed : Option (BitVec 12)) (fault : Option (Nat × FaultCode)) : Part :=
  if p.head.state.actsOnFaults then
    Part.actOn confirmed (if p.windowOver after confirmed then p.withNoStrike fault else (p, fault))
  else p

/-- The end of a frame sent (R138 to R146): the words are judged in slot order, the strike window counted, and either the head
enters FAULTED once or the head state machine acts. -/
def Part.endFrame (p : Part) (latched : List SlotCmd) (words : List (BitVec 16)) : Part :=
  let after := p.afterStrikeFrame latched
  let judged := judgeAll p.head.state p.head.hammerCount 0 p.head.slots latched words
  let hammer := (judged[5]?).bind Judged.status
  let confirmed := if after then confirms p.head.hammerCount hammer else none
  ((p.keepJudged judged).countFrame after latched hammer).actOnFrame after confirmed (firstFault 0 judged)

/-- The strike window runs out without a confirmation: NO_STRIKE on slot 5 (R146, R141). Only in STRIKING is there a window. -/
def Part.windowRunsOut (p : Part) : Part :=
  if p.head.state = .striking then { p with head.window := 16 }.enterFaulted 5 .noStrike else p

end Sys2Proof.Machine
end

