-- ==== Sys2Proof/Machine/Footage.lean ====
section
/-! DEFINITION. The footage unit (chapter 4): area in selling units, wheel symbols, grade, stamp eligibility, and the taking
of a hide from the tracker or from MANUAL_ENTER. -/

namespace Sys2Proof.Machine

/-! ### Area (4.2) -/

/-- Area of one unit in square micrometres (R70). -/
def SellUnit.area : SellUnit → Nat
  | .qft => 23225760000
  | .tft => 9290304000
  | .dm2 => 10000000000

/-- The largest number of units the wheels can show (R72). -/
def SellUnit.maxStampable : SellUnit → Nat
  | .qft => 3999
  | .tft => 9999
  | .dm2 => 9999

/-- Numerator of R70: cell count × cell area × (10000 + trim), with trim from −500 to +500. -/
def areaNumerator (g : Guarded) (cells : Nat) : Nat := cells * (g.beamPitch * g.rowPitch) * (10000 + g.trim).toNat

/-- Divisor of R70. -/
def areaDivisor (g : Guarded) : Nat := 10000 * g.unit.area

/-- Whole division under a rounding mode (R71): NEAREST adds half the divisor, which is even for every unit. -/
def roundQuotient (r : Rounding) (n d : Nat) : Nat :=
  match r with
  | .nearest => (n + d / 2) / d
  | .down => n / d

/-- The units of a cell count (R70, R71). -/
def unitsOf (g : Guarded) (cells : Nat) : Nat := roundQuotient g.rounding (areaNumerator g cells) (areaDivisor g)

/-! ### Wheel symbols (4.3) -/

/-- A leading digit: blank where the value is below the digit's weight (R73). -/
def leadingDigit (v weight : Nat) : Nat := if v < weight then blankSymbol else v / weight % 10

/-- The quarter wheel: blank, ¼, ½, ¾ (R73). -/
def quarterSymbol (q : Nat) : Nat := 10 + q

/-- The wheel symbols of a number of units; none (all unused) above the maximum stampable (R73, R74). -/
def symbolsOf (u : SellUnit) (units : Nat) : Option Symbols :=
  if u.maxStampable < units then none
  else
    some (match u with
      | .qft => { w1 := leadingDigit (units / 4) 100, w2 := leadingDigit (units / 4) 10, w3 := units / 4 % 10,
                  w4 := quarterSymbol (units % 4) }
      | .tft => { w1 := leadingDigit (units / 10) 100, w2 := leadingDigit (units / 10) 10, w3 := units / 10 % 10,
                  w4 := units % 10 }
      | .dm2 => { w1 := leadingDigit units 1000, w2 := leadingDigit units 100, w3 := leadingDigit units 10,
                  w4 := units % 10 })

/-! ### Grade (4.4) -/

/-- The lowest-numbered enabled band that holds the units; a band with low above high holds none (R77). -/
def bandOf (units : Nat) : List Band → Nat → Option Nat
  | [], _ => none
  | b :: bs, k => if b.low ≤ units ∧ units ≤ b.high then some k else bandOf units bs (k + 1)

/-- Steps 4 and 5, or the band override of a manual entry (R77, R78). -/
def gradeInBands (u : Unguarded) (units : Nat) : Option Nat → Grade
  | some k => .band k
  | none =>
    match bandOf units u.bands 0 with
    | some k => .band k
    | none => .ungraded

/-- The grade of a hide, by the first step of 4.4 that applies (R75 to R78). Units above the maximum stampable but below a still
larger small limit are SMALL by the order of the steps, though R74 speaks of every such hide as OVERSIZE or REVIEW (log entry 38). -/
def gradeOf (g : Guarded) (u : Unguarded) (source : Source) (flags : HideFlags) (units : Nat) (override : Option Nat) : Grade :=
  if flags.review || decide (source = .spill) then .review
  else if units < u.smallLimit then .small
  else if u.oversizeLimit < units ∨ g.unit.maxStampable < units then .oversize
  else gradeInBands u units override

/-! ### Eligibility (4.5) -/

/-- Check 1: the grades that are never stamped (R79). -/
def gradeReason : Grade → Option UnstampedReason
  | .review => some .review
  | .small => some .small
  | .oversize => some .oversize
  | .band _ | .ungraded => none

/-- Check 2: the hide's band has its stamp-enable OFF (R79). -/
def bandOff (u : Unguarded) : Grade → Bool
  | .band k => !((u.bands.getD k { low := 0, high := 0, stamp := true }).stamp)
  | .ungraded | .small | .oversize | .review => false

/-- The eligibility checks in order (R79): a reason to leave the hide unstamped, or none. -/
def Part.unstampedReason (p : Part) (info : HideInfo) : Option UnstampedReason :=
  match gradeReason info.grade with
  | some r => some r
  | none =>
    if bandOff p.setup.unguarded info.grade then some .bandOff
    else if !p.setup.unguarded.stamping then some .stampOff
    else if p.head.state = .faulted then some .headFault
    else
      match info.site with
      | none => some .noSite
      | some site =>
        if atOrBefore (strikeRowOf site.row p.setup.guarded.lineOffset) p.tracker.rowIndex then some .lateClose
        else if 8 ≤ p.jobs.length then some .queueFull
        else none

/-- An UNSTAMPED outcome is final at once: the record is released without a strike row, and the closing test it makes due
follows (R79, R125, R126, R89). -/
def Part.leaveUnstamped (p : Part) (info : HideInfo) (r : UnstampedReason) : Part :=
  (p.release info (.unstamped r) none).closingTestFor info.lot

/-- The hand-on of a graded hide from the belt: a job or an UNSTAMPED outcome (R79). A hide no check refuses has its site
(check 5) and its symbols (R74), so the last arm is never reached for a graded hide. -/
def Part.handOn (p : Part) (info : HideInfo) : Part :=
  match p.unstampedReason info, info.site, info.symbols with
  | some r, _, _ => p.leaveUnstamped info r
  | none, some site, some symbols => p.makeJob info site symbols
  | none, _, _ => p.leaveUnstamped info .noSite

/-! ### Taking a hide (R68) -/

/-- The causes of a close (R44). -/
inductive CloseCause where
  | row
  | gap
  | restart
  deriving DecidableEq, Repr

/-- A closing hide's record fields: the hand-over of R44 with units, symbols and grade (R68). -/
def Part.infoOf (p : Part) (source : Source) (h : Hide) : HideInfo :=
  let g := p.setup.guarded
  let units := unitsOf g (h.covered + h.filled)
  { source := source
    grade := gradeOf g p.setup.unguarded source h.flags units none
    number := h.number
    lot := h.lot
    merges := h.merges
    firstRow := h.firstRow
    lastRow := h.lastRow
    minCol := h.minCol
    maxCol := h.maxCol
    covered := h.covered
    filled := h.filled
    units := units
    symbols := symbolsOf g.unit units
    holesFilled := h.holesFilled
    holesLarge := h.holesLarge
    holesBreached := h.holesBreached
    flags := h.flags
    site := h.site }

/-- The footage unit takes a hide from the tracker (R68): cause RESTART skips the checks (R83). -/
def Part.takeHide (p : Part) (source : Source) (cause : CloseCause) (h : Hide) : Part :=
  let info := p.infoOf source h
  if cause = .restart then p.leaveUnstamped info .truncated else p.handOn info

/-- The record fields of a manual hide (R96). -/
def Part.manualInfo (p : Part) (number : Half) (units : Nat) (override : Option Nat) : HideInfo :=
  { source := .manual
    grade := gradeOf p.setup.guarded p.setup.unguarded .manual HideFlags.empty units override
    number := number
    lot := p.lots.openLot.id
    merges := 0
    firstRow := 0
    lastRow := 0
    minCol := 0
    maxCol := 0
    covered := 0
    filled := 0
    units := units
    symbols := symbolsOf p.setup.guarded.unit units
    holesFilled := 0
    holesLarge := 0
    holesBreached := 0
    flags := HideFlags.empty
    site := none }

end Sys2Proof.Machine
end

