-- ==== Sys2Proof/Machine/Holes.lean ====
section
/-! DEFINITION. The hole tracker (chapter 3): candidate gaps, classification, births, continuations, hole merges, breaches and
the closing check. -/

namespace Sys2Proof.Machine

/-! ### Gaps (R49) -/

/-- The entry that owns both segments beside a gap, if there is one. -/
def commonEntry : Owner → Owner → Option Nat
  | .entry i, .entry j => if i = j then some i else none
  | .entry _, .spill | .spill, .entry _ | .spill, .spill => none

/-- The candidate gaps between consecutive segments, left to right (R49). -/
def candidateGaps : List Seg → List Gap
  | a :: b :: rest =>
    match commonEntry a.owner b.owner with
    | some e => { start := a.stop + 1, stop := b.start - 1, owner := e } :: candidateGaps (b :: rest)
    | none => candidateGaps (b :: rest)
  | _ => []

def Gap.width (g : Gap) : Nat := g.stop + 1 - g.start

/-- The columns from `lo` to `hi`. -/
def columns (lo hi : Nat) : List Nat := (List.range (hi + 1 - lo)).map (· + lo)

def Gap.columns (g : Gap) : List Nat := Machine.columns g.start g.stop

/-! ### How a cell reads (R50, R59) -/

def Seg.has (s : Seg) (c : Nat) : Bool := decide (s.start ≤ c) && decide (c ≤ s.stop)

def Run.has (r : Run) (c : Nat) : Bool := decide (r.start ≤ c) && decide (c ≤ r.stop)

/-- A column lies in a segment of this owner. -/
def coveredBy (segs : List Seg) (o : Owner) (c : Nat) : Bool := segs.any (fun s => decide (s.owner = o) && s.has c)

/-- The hole whose run a column lies in. -/
def holeAt (runs : List Run) (c : Nat) : Option Nat := (runs.find? (fun r => r.has c)).map Run.hole

/-- Hole `h` is OPEN with entry `e` as owner (R51). -/
def Part.holeOf (p : Part) (e h : Nat) : Bool := (tableGet p.holes.table h).any (fun x => decide (x.owner = e))

/-- A previous-row cell makes a gap of entry `e` not a hole: it is neither covered by `e` nor in a run of a hole of `e` (R51). -/
def Part.cellForeign (p : Part) (e c : Nat) : Bool :=
  !coveredBy p.tracker.prev (.entry e) c &&
    (match holeAt p.holes.prevRuns c with
     | some h => !p.holeOf e h
     | none => true)

/-- The holes, in ascending index, whose previous-row runs the gap overlaps. -/
def Part.holesOver (p : Part) (g : Gap) : List Nat :=
  (List.range 32).filter
    (fun h => p.holes.prevRuns.any (fun r => decide (r.hole = h) && decide (r.start ≤ g.stop) && decide (g.start ≤ r.stop)))

/-- The three classes of a candidate gap (R51). -/
inductive GapClass where
  | birth
  | continuation
  | notAHole
  deriving DecidableEq, Repr

/-- The class of a candidate gap (R51). -/
def Part.classOf (p : Part) (g : Gap) : GapClass :=
  if g.columns.any (p.cellForeign g.owner) then .notAHole
  else if (p.holesOver g).isEmpty then .birth
  else .continuation

/-! ### Effects -/

/-- Remove every run naming a hole from both lists (R58). -/
def Part.removeRuns (p : Part) (h : Nat) : Part :=
  { p with
    holes.prevRuns := p.holes.prevRuns.filter (fun r => decide (r.hole ≠ h))
    holes.curRuns := p.holes.curRuns.filter (fun r => decide (r.hole ≠ h)) }

/-- Set an entry of the hole table. -/
def Part.setHole (p : Part) (h : Nat) (x : Option Hole) : Part := { p with holes.table := p.holes.table.set h x }

/-- One more hole breached (R58). -/
def Hide.addBreach (x : Hide) : Hide := { x with holesBreached := satAdd max16 x.holesBreached 1 }

/-- A hole is breached: its owner's count, its runs, its entry (R58). -/
def Part.breach (p : Part) (h : Nat) : Part :=
  match tableGet p.holes.table h with
  | some x => (((p.modifyHide (.entry x.owner) Hide.addBreach).removeRuns h).setHole h none)
  | none => p

/-- The owner gets HOLE_LIMIT, and HOLE_TABLE_FULL is raised if it did not carry it (R55). -/
def Part.holeLimit (p : Part) (e : Nat) : Part :=
  match p.hideOf (.entry e) with
  | some x =>
    if x.flags.holeLimit then p
    else (p.setHide (.entry e) (some { x with flags.holeLimit := true })).raise .holeTableFull (x.number.setWidth 32)
  | none => p

/-- Add a run to the current list; the gaps come left to right, so the list stays in column order (R53). -/
def Part.addRun (p : Part) (g : Gap) (h : Nat) : Part :=
  { p with holes.curRuns := p.holes.curRuns ++ [{ start := g.start, stop := g.stop, hole := h }] }

/-- A candidate gap classed as a birth (R54, R55). -/
def Part.holeBirth (p : Part) (g : Gap) : Part :=
  match lowestFree p.holes.table 0 with
  | some h =>
    if p.holes.curRuns.length < 64 then
      (p.setHole h (some { owner := g.owner, firstRow := p.tracker.rowIndex, cells := min max16 g.width })).addRun g h
    else p.holeLimit g.owner
  | none => p.holeLimit g.owner

/-- Which of two holes survives a merge: the earlier first row, then the lower index (R57). -/
def Part.olderHole (p : Part) (a b : Nat) : Nat :=
  match tableGet p.holes.table a, tableGet p.holes.table b with
  | some x, some y => if before y.firstRow x.firstRow then b else if x.firstRow = y.firstRow ∧ b < a then b else a
  | _, _ => a

/-- Rename the runs of a hole (R57). -/
def renameRuns (a b : Nat) (runs : List Run) : List Run := runs.map (fun r => if r.hole = a then { r with hole := b } else r)

/-- Cells are added to a hole, saturating at 65535 (R56, R57). -/
def Hole.addCells (x : Hole) (n : Nat) : Hole := { x with cells := satAdd max16 x.cells n }

/-- Hole `a` is absorbed into hole `b` (R57). -/
def Part.absorbHole (p : Part) (b a : Nat) : Part :=
  let cells := ((tableGet p.holes.table a).map Hole.cells).getD 0
  let p := p.setHole b ((tableGet p.holes.table b).map (fun x => x.addCells cells))
  { p with
    holes.prevRuns := renameRuns a b p.holes.prevRuns
    holes.curRuns := renameRuns a b p.holes.curRuns
    holes.table := p.holes.table.set a none }

/-- A continuation: the holes the gap overlaps become one, which grows by the gap (R56, R57). -/
def Part.holeContinue (p : Part) (g : Gap) : List Nat → Part
  | [] => p
  | h :: hs =>
    let b := hs.foldl p.olderHole h
    let p := ((h :: hs).filter (fun a => decide (a ≠ b))).foldl (fun p a => p.absorbHole b a) p
    (p.setHole b ((tableGet p.holes.table b).map (fun x => x.addCells g.width))).addRun g b

/-- Every hole the gap overlaps is breached, whoever its owner (R58). -/
def Part.breachOver (p : Part) (g : Gap) : Part := (p.holesOver g).foldl Part.breach p

/-- One candidate gap is classed and its class carried out (R51, R54 to R58). -/
def Part.classifyGap (p : Part) (g : Gap) : Part :=
  match p.classOf g with
  | .birth => p.holeBirth g
  | .continuation =>
    if p.holes.curRuns.length < 64 then p.holeContinue g (p.holesOver g)
    else (p.breachOver g).holeLimit g.owner
  | .notAHole => p.breachOver g

/-! ### Closing check (3.6) -/

/-- The columns under a hole's runs in the previous list (R59). -/
def Part.columnsUnder (p : Part) (h : Nat) : List Nat :=
  ((p.holes.prevRuns.filter (fun r => decide (r.hole = h))).map (fun r => Machine.columns r.start r.stop)).flatten

/-- A current cell under hole `h` is continuing (R59). -/
def Part.cellContinuing (p : Part) (h c : Nat) : Bool := p.holes.curRuns.any (fun r => decide (r.hole = h) && r.has c)

/-- A current cell under hole `h` of entry `e` is open: neither continuing nor capped (R59). -/
def Part.cellOpen (p : Part) (e h c : Nat) : Bool :=
  !p.cellContinuing h c && !coveredBy p.tracker.cur (.entry e) c

/-- An enclosed hole fills, or is large (R60). -/
def Hide.enclose (x : Hide) (cells limit : Nat) : Hide :=
  if cells ≤ limit then
    { x with filled := satAdd max32 x.filled cells, holesFilled := satAdd max16 x.holesFilled 1 }
  else { x with holesLarge := satAdd max16 x.holesLarge 1 }

/-- The closing check of one hole (R59 to R61); a hole with no run in the previous list was born in this pass. -/
def Part.checkHole (p : Part) (h : Nat) : Part :=
  match tableGet p.holes.table h with
  | none => p
  | some x =>
    let cols := p.columnsUnder h
    if cols.isEmpty then p
    else if cols.any (p.cellOpen x.owner h) then p.breach h
    else if cols.any (p.cellContinuing h) then p
    else (p.modifyHide (.entry x.owner) (fun y => y.enclose x.cells p.setup.guarded.fillLimit)).setHole h none

/-- The closing check, in ascending index (R59). -/
def Part.checkHoles (p : Part) : Part := (List.range 32).foldl Part.checkHole p

/-- Every hole an owner still holds is breached, in ascending index (R63); the spill account holds none. -/
def Part.breachOwned (p : Part) : Owner → Part
  | .entry e => ((List.range 32).filter (p.holeOf e)).foldl Part.breach p
  | .spill => p

/-- An absorbed entry's holes get the survivor as owner (R62). -/
def Part.reownHoles (p : Part) (absorbed survivor : Nat) : Part :=
  { p with
    holes.table := p.holes.table.map
      (Option.map (fun x => if x.owner = absorbed then { x with owner := survivor } else x)) }

end Sys2Proof.Machine
end

