-- ==== Sys2Proof/Machine/Tracker.lean ====
section
/-! DEFINITION. The hide tracker (chapter 2): segmentation, hide numbers, births, merges, spill joins, accumulation, closing. -/

namespace Sys2Proof.Machine

/-! ### Segmentation (2.2) -/

/-- The maximal covered runs of `n` columns from `col` on, left to right; `open_` is the start of a run not yet ended (R24). -/
def runsFrom (row : Beams) : Nat → Nat → Option Nat → List SegPlan
  | 0, _, none => []
  | 0, col, some a => [{ start := a, stop := col - 1, united := false }]
  | n + 1, col, none => runsFrom row n (col + 1) (if row.getLsbD col then some col else none)
  | n + 1, col, some a =>
    if row.getLsbD col then runsFrom row n (col + 1) (some a)
    else { start := a, stop := col - 1, united := false } :: runsFrom row n (col + 1) none

/-- Runs 128 and later become one united segment (R25). -/
def unite (runs : List SegPlan) : List SegPlan :=
  match runs.drop 127 with
  | r :: s :: rest =>
    runs.take 127 ++ [{ start := r.start, stop := ((s :: rest).getLast (by simp)).stop, united := true }]
  | _ => runs

/-- The segments of a conditioned row, without owners (R24, R25). -/
def segmentsOf (beams : Nat) (row : Beams) : List SegPlan := unite (runsFrom row beams 0 none)

/-! ### Hide numbers (R28) -/

/-- The number after `n`: 65535 is followed by 1 (R28). -/
def nextNumber (n : Half) : Half := if n = 65535 then 1 else n + 1

/-- Advance past the numbers carried, at most `fuel` steps. -/
def skipCarried (carried : List Half) : Nat → Half → Half
  | 0, n => n
  | fuel + 1, n => if carried.contains n then skipCarried carried fuel (nextNumber n) else n

/-- The hide numbers carried now by open hides and jobs (R28, R115). -/
def Part.carriedNumbers (p : Part) : List Half := p.openHides.map Hide.number ++ p.jobs.map (fun j => j.info.number)

/-- Draw a hide number (R28). -/
def Part.drawNumber (p : Part) : Half × Part :=
  let carried := p.carriedNumbers
  let n := skipCarried carried (carried.length + 1) p.tracker.counter
  (n, { p with tracker.counter := nextNumber n }.mark wHideNumber)

/-! ### Ownership (2.4, 2.5) -/

/-- A previous segment shares a column with the current one. -/
def Seg.overlaps (s : Seg) (g : SegPlan) : Bool := decide (s.start ≤ g.stop) && decide (g.start ≤ s.stop)

/-- Add an owner to a set, once. -/
def addOwner (os : List Owner) (o : Owner) : List Owner := if os.contains o then os else os ++ [o]

/-- The owner set of a segment (R29), each owner once, in the order of its leftmost overlapped segment. -/
def Part.ownerSet (p : Part) (g : SegPlan) : List Owner :=
  ((p.tracker.prev.filter (fun s => s.overlaps g)).map Seg.owner).foldl addOwner []

/-- Start column of an owner's leftmost previous-list segment (R33). -/
def Part.leftmost (p : Part) (o : Owner) : Nat :=
  ((p.tracker.prev.filter (fun s => decide (s.owner = o))).map Seg.start).head?.getD 384

/-- First row of the hide an owner holds. -/
def Part.firstRowOf (p : Part) (o : Owner) : Word := ((p.hideOf o).map Hide.firstRow).getD 0

/-- Survivor of two entries: the earlier first row, then the smaller leftmost start column (R33). -/
def Part.survivorOf (p : Part) (a b : Owner) : Owner :=
  if before (p.firstRowOf b) (p.firstRowOf a) then b
  else if p.firstRowOf a = p.firstRowOf b ∧ p.leftmost b < p.leftmost a then b
  else a

/-- Every segment of one owner is re-pointed to another, in both lists (R26). -/
def repoint (a b : Owner) (segs : List Seg) : List Seg := segs.map (fun s => if s.owner = a then { s with owner := b } else s)

/-- The later of two sites; the survivor's on a tie (R34). -/
def mergeSite (survivor absorbed : Option Site) : Option Site :=
  match survivor, absorbed with
  | some a, some b => if before a.row b.row then some b else some a
  | some a, none => some a
  | none, b => b

/-- An absorption, field by field, with the DOUBLE test on the counts as they stand (R34, R35). -/
def Hide.absorb (s a : Hide) (doubleThreshold : Nat) : Hide :=
  { number := s.number
    lot := s.lot
    firstRow := earlier s.firstRow a.firstRow
    lastRow := s.lastRow
    covered := satAdd max32 s.covered a.covered
    filled := satAdd max32 s.filled a.filled
    noise := satAdd max16 s.noise a.noise
    minCol := min s.minCol a.minCol
    maxCol := max s.maxCol a.maxCol
    merges := satAdd max16 (s.merges + a.merges) 1
    holesFilled := satAdd max16 s.holesFilled a.holesFilled
    holesLarge := satAdd max16 s.holesLarge a.holesLarge
    holesBreached := satAdd max16 s.holesBreached a.holesBreached
    flags :=
      let f := s.flags.union a.flags
      { f with double := f.double || (decide (doubleThreshold ≤ s.covered) && decide (doubleThreshold ≤ a.covered)) }
    site := mergeSite s.site a.site }

/-- An owner is taken into entry `b` with everything it holds, and becomes FREE or idle (R34, R36, R37, R62). -/
def Part.absorbOwner (p : Part) (b : Nat) (a : Owner) : Part :=
  match p.hideOf (.entry b), p.hideOf a with
  | some s, some x =>
    let y := s.absorb x p.setup.guarded.doubleThreshold
    let y := if a = .spill then { y with flags.spillJoined := true } else y
    let p := p.setHide (.entry b) (some y)
    let p := { p with
      tracker.prev := repoint a (.entry b) p.tracker.prev
      tracker.cur := repoint a (.entry b) p.tracker.cur }
    let p := match a with
      | .entry i => p.reownHoles i b
      | .spill => p
    p.setHide a none
  | _, _ => p

/-- The fields of a birth (2.3). -/
def Hide.newborn (number lot : Half) (row : Word) (g : SegPlan) : Hide :=
  { number := number, lot := lot, firstRow := row, lastRow := row, covered := 0, filled := 0, noise := 0,
    minCol := g.start, maxCol := g.stop, merges := 0, holesFilled := 0, holesLarge := 0, holesBreached := 0,
    flags := HideFlags.empty, site := none }

/-- An owner that is FREE or idle opens with a new hide: number, lot, birth reported (R28, R30, R31, R86). -/
def Part.birthAt (p : Part) (o : Owner) (g : SegPlan) : Part :=
  let (number, p) := p.drawNumber
  let (lot, p) := p.birthLot
  p.setHide o (some (Hide.newborn number lot p.tracker.rowIndex g))

/-- A birth: the lowest FREE entry, else the spill account, opened if idle (R30, R31). Answers the owner. -/
def Part.birth (p : Part) (g : SegPlan) : Owner × Part :=
  match lowestFree p.tracker.table 0 with
  | some i => (.entry i, p.birthAt (.entry i) g)
  | none =>
    match p.tracker.spill with
    | some _ => (.spill, p)
    | none =>
      let p := p.birthAt .spill g
      (.spill, p.raise .hideTableFull ((((p.tracker.spill.map Hide.number).getD 0)).setWidth 32))

/-- The entries of an owner set. -/
def entriesOf (os : List Owner) : List Owner := os.filter (fun o => decide (o ≠ .spill))

/-- Merge the entries of an owner set into the survivor, in ascending start column of their leftmost segments, then join the
spill account if the set holds it (R33, R36). Answers the owner that results. -/
def Part.mergeOwners (p : Part) (os : List Owner) : Owner × Part :=
  match entriesOf os with
  | [] => (.spill, p)
  | e :: es =>
    match es.foldl p.survivorOf e with
    | .spill => (.spill, p)
    | .entry b =>
      let others := sortBy (fun a c => decide (p.leftmost a ≤ p.leftmost c))
        ((e :: es).filter (fun o => decide (o ≠ .entry b)))
      let p := others.foldl (fun p a => p.absorbOwner b a) p
      (.entry b, if os.contains .spill then p.absorbOwner b .spill else p)

/-- The owner of a united segment 128 gets FRAGMENT, and FRAGMENT_ROW is raised if it did not carry it (R25). -/
def Part.flagFragment (p : Part) (o : Owner) : Part :=
  match p.hideOf o with
  | some x =>
    if x.flags.fragment then p
    else (p.setHide o (some { x with flags.fragment := true })).raise .fragmentRow (x.number.setWidth 32)
  | none => p

/-- The ownership stage for one segment (R29): a birth, or a continuation, merge or spill join. -/
def Part.ownSegment (p : Part) (g : SegPlan) : Part :=
  let os := p.ownerSet g
  let (o, p) := if os.isEmpty then p.birth g else p.mergeOwners os
  let p := { p with tracker.cur := p.tracker.cur ++ [{ start := g.start, stop := g.stop, owner := o }] }
  if g.united then p.flagFragment o else p

/-! ### Accumulation (2.6) -/

def Seg.width (s : Seg) : Nat := s.stop + 1 - s.start

/-- The noisy beams from a segment's start to its end (R38). -/
def noiseIn (noisy : Beams) (s : Seg) : Nat := ((columns s.start s.stop).filter (fun c => noisy.getLsbD c)).length

/-- What one segment adds to its owner (R38, R39, R41). -/
def Hide.addSegment (h : Hide) (row : Word) (beams : Nat) (r : CondRow) (s : Seg) : Hide :=
  { h with
    covered := satAdd max32 h.covered s.width
    lastRow := row
    minCol := min h.minCol s.start
    maxCol := max h.maxCol s.stop
    noise := satAdd max16 h.noise (noiseIn r.noisy s)
    flags := h.flags.addRow (decide (s.start = 0) || decide (s.stop + 1 = beams)) r.gap }

/-- The NOISY test of an owner, after every segment is done (R40). -/
def Hide.testNoise (h : Hide) (limit : Nat) : Hide := { h with flags := h.flags.addNoisy h.noise limit }

/-- The accumulation stage (R38 to R41). -/
def Part.accumulate (p : Part) (r : CondRow) : Part :=
  let p := p.tracker.cur.foldl
    (fun p s => p.modifyHide s.owner (fun h => h.addSegment p.tracker.rowIndex p.setup.guarded.beams r s)) p
  p.tracker.cur.foldl (fun p s => p.modifyHide s.owner (fun h => h.testNoise p.setup.unguarded.noiseLimit)) p

/-! ### Closing (2.7) -/

/-- Close order: ascending first row, then ascending hide number (R42). -/
def Part.closesBefore (p : Part) (a b : Owner) : Bool :=
  match p.hideOf a, p.hideOf b with
  | some x, some y =>
    before x.firstRow y.firstRow || (decide (x.firstRow = y.firstRow) && decide (x.number ≤ y.number))
  | _, _ => true

/-- Every open owner in close order (R42). -/
def Part.closeOrder (p : Part) (os : List Owner) : List Owner := sortBy p.closesBefore os

/-- The open owners without a segment in the current list, in close order (R42). -/
def Part.toClose (p : Part) : List Owner :=
  p.closeOrder (p.openOwners.filter (fun o => !p.tracker.cur.any (fun s => decide (s.owner = o))))

/-- The source of a close (R44). -/
def Owner.source : Owner → Source
  | .entry _ => .belt
  | .spill => .spill

/-- A closed BELT hide joins the recent-hides list; a spill hide does not (R105). -/
def Part.noteClosed (p : Part) (o : Owner) (h : Hide) : Part :=
  match o with
  | .entry _ => p.addRecent { number := h.number, lot := h.lot, firstRow := h.firstRow, lastRow := h.lastRow }
  | .spill => p

/-- Close one hide (R42): its holes are breached, it is handed over, its place is freed, the lot and mark unit is told, the
counter goes up. The place is freed before the waiting marks are looked at again: a closing hide is no open candidate
(log entry 22). A hide closed by a truncate stage or by RESTART carries TRUNCATED (R45, R46). -/
def Part.closeHide (p : Part) (cause : CloseCause) (o : Owner) : Part :=
  let p := p.breachOwned o
  match p.hideOf o with
  | none => p
  | some h =>
    let h := if cause = .row then h else { h with flags.truncated := true }
    let p := (p.takeHide o.source cause h).setHide o none
    let p := (p.noteClosed o h).reexamineMarks
    { p with tracker.closed := p.tracker.closed + 1 }.mark wClosed

end Sys2Proof.Machine
end

