-- ==== Sys2Proof/Machine/Sites.lean ====
section
/-! DEFINITION. Column heights and the site search (6.1, 6.2). -/

namespace Sys2Proof.Machine

/-- The new height of one column (R109): one more where covered, at most 63, else 0. -/
def newHeight (covered : Bool) (h : Nat) : Nat := if covered then min 63 (h + 1) else 0

/-- The new heights of beams 0 to B − 1; those from B on are not read and stay (R109, R110). -/
def newHeights (beams : Nat) (row : Beams) (heights : List Nat) : List Nat :=
  List.zipWith (fun c h => if c < beams then newHeight (row.getLsbD c) h else h) (List.range heights.length) heights

/-- The window with left column `l` qualifies (R111): every one of its columns is at least SL high. -/
def windowQualifies (heights : List Nat) (sw sl l : Nat) : Bool := ((heights.drop l).take sw).all (fun h => decide (sl ≤ h))

/-- The left columns of the windows of a segment that are not excluded (R111): inside the segment, clear of beams 0 and B − 1. -/
def windowsOf (beams sw : Nat) (s : Seg) : List Nat :=
  (columns s.start s.stop).filter
    (fun l => decide (l + sw ≤ s.stop + 1) && decide (1 ≤ l) && decide (l + sw + 1 ≤ beams))

/-- Twice the distance between the centres of a window and of its segment (R112). -/
def centreDistance (sw : Nat) (s : Seg) (l : Nat) : Nat := ((2 * l + sw - 1 : Int) - (s.start + s.stop : Int)).natAbs

/-- The left column of the best of some windows in ascending order: the nearest centre, the smaller column on a tie (R112). -/
def nearestWindow (sw : Nat) (s : Seg) : List Nat → Option Nat
  | [] => none
  | l :: ls =>
    some (ls.foldl (fun best x => if centreDistance sw s x < centreDistance sw s best then x else best) l)

/-- The site a segment offers in this row (R111, R112). -/
def siteIn (g : Guarded) (heights : List Nat) (s : Seg) : Option Nat :=
  if s.width < g.sw then none
  else nearestWindow g.sw s ((windowsOf g.beams g.sw s).filter (windowQualifies heights g.sw g.sl))

/-- The site search from left to right; `done` are the entries that have found a site in this row already (R112). -/
def Part.searchSites (p : Part) (heights : List Nat) : List Seg → List Nat → Part
  | [], _ => p
  | s :: ss, done =>
    match s.owner with
    | .spill => p.searchSites heights ss done
    | .entry e =>
      if done.contains e then p.searchSites heights ss done
      else
        match siteIn p.setup.guarded heights s with
        | some l =>
          (p.modifyHide (.entry e) (fun h => { h with site := some { row := p.tracker.rowIndex, col := l } })).searchSites
            heights ss (e :: done)
        | none => p.searchSites heights ss done

/-- Stage 7: the site search reads the row's new heights, which then replace the stored ones (R109, R111). -/
def Part.siteStage (p : Part) (r : CondRow) : Part :=
  let heights := newHeights p.setup.guarded.beams r.covered p.sched.heights
  { p.searchSites heights p.tracker.cur [] with sched.heights := heights }

end Sys2Proof.Machine
end

