-- ==== Sys2Proof/Machine/RowPass.lean ====
section
/-! DEFINITION. The row pass as a whole (2.1): the take, the units of work of its stages, what waits for its end, and the
tracker's part of RESTART. A pass is run whole or so many units at a time; a command that comes between finds the pass where it
stands (R23; log entry 1). -/

namespace Sys2Proof.Machine

/-! ### RESTART (2.8) -/

/-- The segment lists and the hole-run lists are emptied (R45, R46, R64). -/
def Part.emptyLists (p : Part) : Part :=
  { p with tracker.prev := [], tracker.cur := [], holes.prevRuns := [], holes.curRuns := [] }

/-- The snapshot at a setup-quiet moment, then the closing test (R181, R89). -/
def Part.quietTests (p : Part) : Part := p.applySnapshotIfQuiet.closingTest

/-- Close hides one after another (R42). -/
def Part.closeAll (p : Part) (cause : CloseCause) (os : List Owner) : Part := os.foldl (fun p o => p.closeHide cause o) p

/-- The tracker takes RESTART (R46): the scheduler's part first (R129), then every open hide closes TRUNCATED, the lists are
emptied, and the tests follow (R182, R107). -/
def Part.takeRestart (p : Part) : Part :=
  let p := p.schedulerRestart
  ((p.closeAll .restart (p.closeOrder p.openOwners)).emptyLists).quietTests

/-- Take so many RESTARTs in turn (R182). -/
def Part.takeRestarts (p : Part) : Nat → Part
  | 0 => p
  | n + 1 => p.takeRestart.takeRestarts n

/-! ### The end of a pass -/

/-- What waits for the end of a pass is taken, and the tests due at it are made (R15, R46, R89, R181). Where RESTART waits the
manual leaves the order against a notice open (R23), and does not rank the tests: Config says (log entry 11). -/
def Part.passEnd (p : Part) : Part :=
  let n := p.tracker.restartsWaiting
  if n = 0 then p.takeWaitingNotice.quietTests
  else
    let k := p.free
    let p := { p with free := k + 1, tracker.restartsWaiting := 0 }
    let p := if Config.noticeFirst k then p.takeWaitingNotice else p
    let p := if Config.testsFirst k then p.quietTests else p
    ((p.takeRestarts n).takeWaitingNotice).quietTests

/-- Stage 8, the list exchange (R26, R53), and the end of the pass (R21). -/
def Part.exchangeLists (p : Part) : Part :=
  { p with
    tracker.prev := p.tracker.cur
    tracker.cur := []
    tracker.pass := none
    holes.prevRuns := p.holes.curRuns
    holes.curRuns := [] }.passEnd

/-! ### The take -/

/-- The pass stands at this stage. -/
def Part.atStage (p : Part) (r : CondRow) (st : PassStage) : Part := { p with tracker.pass := some { row := r, stage := st } }

/-- The first stage of a row's pass: truncation only for a truncate-marked row (2.1). -/
def Part.firstStage (p : Part) (r : CondRow) : PassStage :=
  if r.trunc then .truncating (p.closeOrder p.openOwners) else .segmentation

/-- Take the row at the front of the row queue (R21, R22): pass flag, row index, and the scheduler's response to the increment. -/
def Part.takeRow (p : Part) : Part :=
  match p.intake.queue with
  | [] => p
  | r :: rest =>
    let p := { p with intake.queue := rest, tracker.rowIndex := p.tracker.rowIndex + 1 }.mark wRow
    (p.atStage r (p.firstStage r)).settleIncrement

/-! ### Stages -/

/-- The end of the truncate stage: lists emptied, heights 0 (R45). -/
def Part.truncated (p : Part) : Part := p.emptyLists.clearHeights

/-- Stage 8. -/
def finishExchange (p : Part) : Part := p.exchangeLists

/-- Stage 7 and what follows. -/
def finishSites (r : CondRow) (p : Part) : Part := finishExchange ((p.siteStage r).atStage r .exchange)

/-- Stage 6 and what follows. -/
def finishClosing (r : CondRow) : List Owner → Part → Part
  | [], p => finishSites r (p.atStage r .sites)
  | o :: os, p => finishClosing r os ((p.closeHide .row o).atStage r (.closing os))

/-- The closing check of holes, then the list of hides to close. -/
def Part.checkedStage (p : Part) (r : CondRow) : Part :=
  let p := p.checkHoles
  p.atStage r (.closing p.toClose)

/-- Stage 5, closing check, and what follows. -/
def finishChecking (r : CondRow) (p : Part) : Part := finishClosing r p.checkHoles.toClose (p.checkedStage r)

/-- Stage 5, classification, and what follows. -/
def finishGaps (r : CondRow) : List Gap → Part → Part
  | [], p => finishChecking r (p.atStage r .closingCheck)
  | g :: gs, p => finishGaps r gs ((p.classifyGap g).atStage r (.gaps gs))

/-- Stage 4, then the list of candidate gaps. -/
def Part.accumulatedStage (p : Part) (r : CondRow) : Part :=
  let p := p.accumulate r
  p.atStage r (.gaps (candidateGaps p.tracker.cur))

/-- Stage 4 and what follows. -/
def finishAccumulation (r : CondRow) (p : Part) : Part :=
  finishGaps r (candidateGaps (p.accumulate r).tracker.cur) (p.accumulatedStage r)

/-- Stage 3 and what follows. -/
def finishOwnership (r : CondRow) : List SegPlan → Part → Part
  | [], p => finishAccumulation r (p.atStage r .accumulation)
  | g :: gs, p => finishOwnership r gs ((p.ownSegment g).atStage r (.ownership gs))

/-- Stage 2 and what follows. -/
def finishSegmentation (r : CondRow) (p : Part) : Part :=
  let segs := segmentsOf p.setup.guarded.beams r.covered
  finishOwnership r segs (p.atStage r (.ownership segs))

/-- Stage 1 and what follows. -/
def finishTruncating (r : CondRow) : List Owner → Part → Part
  | [], p => finishSegmentation r (p.truncated.atStage r .segmentation)
  | o :: os, p => finishTruncating r os ((p.closeHide .gap o).atStage r (.truncating os))

/-! ### The pass -/

/-- Run what is left of the pass in progress, stage by stage in the order of 2.1; nothing if there is none. -/
def Part.finishPass (p : Part) : Part :=
  match p.tracker.pass with
  | none => p
  | some { row := r, stage := st } =>
    match st with
    | .truncating os => finishTruncating r os p
    | .segmentation => finishSegmentation r p
    | .ownership gs => finishOwnership r gs p
    | .accumulation => finishAccumulation r p
    | .gaps gs => finishGaps r gs p
    | .closingCheck => finishChecking r p
    | .closing os => finishClosing r os p
    | .sites => finishSites r p
    | .exchange => finishExchange p

/-- One unit of work of the pass in progress: a hide closed, a segment given its owner, a gap classed, or a whole stage. -/
def Part.passUnit (p : Part) : Part :=
  match p.tracker.pass with
  | none => p
  | some { row := r, stage := st } =>
    match st with
    | .truncating [] => p.truncated.atStage r .segmentation
    | .truncating (o :: os) => (p.closeHide .gap o).atStage r (.truncating os)
    | .segmentation => p.atStage r (.ownership (segmentsOf p.setup.guarded.beams r.covered))
    | .ownership [] => p.atStage r .accumulation
    | .ownership (g :: gs) => (p.ownSegment g).atStage r (.ownership gs)
    | .accumulation => p.accumulatedStage r
    | .gaps [] => p.atStage r .closingCheck
    | .gaps (g :: gs) => (p.classifyGap g).atStage r (.gaps gs)
    | .closingCheck => p.checkedStage r
    | .closing [] => p.atStage r .sites
    | .closing (o :: os) => (p.closeHide .row o).atStage r (.closing os)
    | .sites => (p.siteStage r).atStage r .exchange
    | .exchange => p.exchangeLists

/-- So many units of work. -/
def Part.passUnits (p : Part) : Nat → Part
  | 0 => p
  | n + 1 => p.passUnit.passUnits n

/-- A row pass (R21): the front row is taken if no pass is in progress, and the pass is run, whole or for so many units. -/
def Part.rowPass (p : Part) (units : Option Nat) : Part :=
  let p := if p.tracker.pass.isSome then p else p.takeRow
  match units with
  | none => p.finishPass
  | some n => p.passUnits n

end Sys2Proof.Machine
end

