-- ==== Sys2Proof/Machine/RowIntake.lean ====
section
/-! DEFINITION. Row intake (chapter 1): assembly buffers, header completion, the sequence check, conditioning, RESTART's part. -/

namespace Sys2Proof.Machine

/-! ### Assembly buffers (1.2) -/

/-- A buffer just allocated: every written flag clear (R3). -/
def Buffer.fresh (slot : BitVec 6) (beams : Nat) : Buffer :=
  { slot := slot, words := List.replicate (3 * wordsPerSubRow beams) { data := 0, written := 0 } }

/-- Merge a beat into a beam word (R3). -/
def BufWord.merge (w : BufWord) (en : Lanes) (data : Word) : BufWord :=
  { data := mergeLanes w.data data en, written := w.written ||| en }

/-- Merge a beat into beam word `i` of a buffer (R3). -/
def Buffer.merge (b : Buffer) (i : Nat) (en : Lanes) (data : Word) : Buffer :=
  { b with words := b.words.modify i (fun w => w.merge en data) }

/-- Every beam word has all four written flags set (1.2). -/
def Buffer.complete (b : Buffer) : Bool := b.words.all (fun w => decide (w.written = 0xF))

/-- The buffer HELD for a slot. -/
def Part.bufferFor (p : Part) (slot : BitVec 6) : Option Buffer := p.intake.buffers.find? (fun b => decide (b.slot = slot))

/-- The buffer HELD for a slot becomes FREE (R5). -/
def Part.freeBuffer (p : Part) (slot : BitVec 6) : Part :=
  { p with intake.buffers := p.intake.buffers.filter (fun b => decide (b.slot ≠ slot)) }

/-- One more row dropped (R17). -/
def Part.countDropped (p : Part) (n : Nat) : Part :=
  if n = 0 then p else { p with intake.dropped := p.intake.dropped + BitVec.ofNat 32 n }.mark wDropped

/-- A slot is lost as incomplete: ROW_INCOMPLETE and one row dropped (R4, R5). -/
def Part.rowIncomplete (p : Part) (slot : BitVec 6) : Part := (p.raise .rowIncomplete (slot.setWidth 32)).countDropped 1

/-- Make room for a buffer: with both HELD the older is abandoned (R4). -/
def Part.evict (p : Part) : Part :=
  match p.intake.buffers with
  | a :: b :: rest => { p with intake.buffers := b :: rest }.rowIncomplete a.slot
  | _ => p

/-- A slot has a HELD buffer afterwards, allocated if need be (R3, R4). -/
def Part.ensureBuffer (p : Part) (slot : BitVec 6) : Part :=
  match p.bufferFor slot with
  | some _ => p
  | none =>
    let p := p.evict
    { p with intake.buffers := p.intake.buffers ++ [Buffer.fresh slot p.setup.guarded.beams] }

/-- A slot number lies in the row ring; with a slot count of 0 there is none (R1). -/
def Part.slotInRing (p : Part) (slot : BitVec 6) : Bool := decide (slot.toNat < p.setup.guarded.slotCount)

/-- A write beat at word offset `offset` of a slot (R2, R3): outside the beam words, or with no lane enabled, nothing. -/
def Part.beamWord (p : Part) (slot offset : BitVec 6) (en : Lanes) (data : Word) : Part :=
  if p.slotInRing slot ∧ 1 ≤ offset.toNat ∧ offset.toNat ≤ 3 * wordsPerSubRow p.setup.guarded.beams ∧ en ≠ 0 then
    let p := p.ensureBuffer slot
    { p with intake.buffers :=
        p.intake.buffers.map (fun b => if b.slot = slot then b.merge (offset.toNat - 1) en data else b) }
  else p

/-! ### Conditioning (1.7) -/

/-- One sub-row of a completed slot: `n` words from word `i` on, beam 0 lowest (11.1). -/
def subRow (words : List BufWord) (i n : Nat) : Beams :=
  (List.range n).foldl
    (fun acc j => acc ||| (((words.getD (i + j) { data := 0, written := 0 }).data).setWidth 384 <<< (32 * j))) 0

/-- The three sub-rows of a completed slot. -/
structure SubRows where
  a : Beams
  b : Beams
  c : Beams
  deriving DecidableEq, Repr

/-- Sub-rows A, B and C of a buffer's words (11.1). -/
def subRowsOf (words : List BufWord) (beams : Nat) : SubRows :=
  let n := wordsPerSubRow beams
  { a := subRow words 0 n, b := subRow words n n, c := subRow words (2 * n) n }

/-- The majority of each beam (R12). -/
def SubRows.majority (r : SubRows) : Beams := (r.a &&& r.b) ||| (r.a &&& r.c) ||| (r.b &&& r.c)

/-- The beams whose three readings are not all the same (R12). -/
def SubRows.disagree (r : SubRows) : Beams := (r.a ^^^ r.b) ||| (r.a ^^^ r.c)

/-- Beams 0 to B − 1. -/
def beamsBelow (beams : Nat) : Beams := BitVec.ofNat 384 (2 ^ beams - 1)

/-- The nearest unmasked beam below `b` (R13). -/
def unmaskedBelow (mask : Beams) (b : Nat) : Option Nat := (List.range b).reverse.find? (fun c => !mask.getLsbD c)

/-- The nearest unmasked beam above `b`, below B (R13). -/
def unmaskedAbove (mask : Beams) (beams b : Nat) : Option Nat := (columns (b + 1) (beams - 1)).find? (fun c => !mask.getLsbD c)

/-- The value a masked beam takes (R13). -/
def interpolate (mask majority : Beams) (beams b : Nat) : Bool :=
  match unmaskedBelow mask b, unmaskedAbove mask beams b with
  | some lo, some hi => majority.getLsbD lo && majority.getLsbD hi
  | some lo, none => majority.getLsbD lo
  | none, some hi => majority.getLsbD hi
  | none, none => false

/-- The beams below B that are masked, as values taken from their neighbours (R13). -/
def interpolated (mask majority : Beams) (beams : Nat) : Beams :=
  (List.range beams).foldl
    (fun acc b => if mask.getLsbD b && interpolate mask majority beams b then acc ||| ((1 : Beams) <<< b) else acc) 0

/-- The covered values of a conditioned row (R12, R13). -/
def conditionedValues (mask majority : Beams) (beams : Nat) : Beams :=
  ((majority &&& ~~~ mask) ||| interpolated mask majority beams) &&& beamsBelow beams

/-- The noisy set of a conditioned row: a masked beam is never noisy (R12). -/
def noisySet (mask : Beams) (r : SubRows) (beams : Nat) : Beams := r.disagree &&& ~~~ mask &&& beamsBelow beams

/-- A beam's stuck-run counter after a conditioned row (R14). -/
def stuckCount (inSetupMask covered : Bool) (n : Nat) : Nat :=
  if inSetupMask then 0 else if covered then min 16383 (n + 1) else 0

/-- The stuck-run counters after a conditioned row; beams from B on keep theirs (R14). -/
def stuckCounts (setupMask majority : Beams) (beams : Nat) (stuck : List Nat) : List Nat :=
  List.zipWith
    (fun b n => if b < beams then stuckCount (setupMask.getLsbD b) (majority.getLsbD b) n else n)
    (List.range stuck.length) stuck

/-- The beams that join the auto-mask in this row (R14): covered, not in the setup mask, counter at the limit, not yet in the
auto-mask. R14 gives no order among the BEAM_STUCK events of one row: ascending beam number is the model's choice (log entry 36). -/
def newlyStuck (setupMask autoMask majority : Beams) (beams limit : Nat) (stuck : List Nat) : List Nat :=
  (List.range beams).filter
    (fun b => !setupMask.getLsbD b && !autoMask.getLsbD b && majority.getLsbD b && decide (limit ≤ stuck.getD b 0))

/-- A beam joins the auto-mask: BEAM_STUCK, and a MASKED_BEAMS notice for the tracker (R14, R15). -/
def Part.stickBeam (p : Part) (b : Nat) : Part :=
  ({ p with intake.autoMask := p.intake.autoMask ||| ((1 : Beams) <<< b) }.raise .beamStuck (BitVec.ofNat 32 b)).giveNotice

/-- Condition an accepted row (R12 to R14): the row for the queue, without marks, and the part with its masks and counters
brought up to date. The row is conditioned with the masks as they stood before it. -/
def Part.condition (p : Part) (r : SubRows) : CondRow × Part :=
  let g := p.setup.guarded
  let mask := g.mask ||| p.intake.autoMask
  let row : CondRow :=
    { covered := conditionedValues mask r.majority g.beams, noisy := noisySet mask r g.beams, gap := false, trunc := false }
  let stuck := stuckCounts g.mask r.majority g.beams p.intake.stuck
  let joined := newlyStuck g.mask p.intake.autoMask r.majority g.beams g.stuckLimit stuck
  (row, joined.foldl Part.stickBeam { p with intake.stuck := stuck, intake.lastRow := row.covered })

/-! ### The sequence check (1.4) -/

/-- Free places of the row queue. -/
def Part.freeRows (p : Part) : Nat := 4 - p.intake.queue.length

/-- A row enters the queue at its back (R10). -/
def Part.queueRow (p : Part) (r : CondRow) : Part := { p with intake.queue := p.intake.queue ++ [r] }

/-- A row is accepted: expectation, count, restart signal (R6 to R9, R11). -/
def Part.acceptRow (p : Part) (seq : Half) : Part :=
  ({ p with intake.expected := seq + 1, intake.accepted := p.intake.accepted + 1 }.mark wAccepted).restartSignal

/-- A row is dropped for overrun (R10). -/
def Part.overrun (p : Part) (seq : Half) : Part := (p.raise .rowOverrun (seq.setWidth 32)).countDropped 1

/-- The tracker may still hold or open hides: a pass in progress, an open hide, or a queued row (R6). -/
def Part.trackerBusy (p : Part) : Bool := !p.trackerQuiet || !p.intake.queue.isEmpty

/-- A sync row (R6). -/
def Part.syncRow (p : Part) (seq : Half) (r : SubRows) : Part :=
  if p.freeRows = 0 then { p.overrun seq with intake.syncPending := true }
  else
    let trunc := p.trackerBusy
    let (row, p) := { p with intake.syncPending := false }.condition r
    let p := p.queueRow { row with trunc := trunc }
    (if trunc then p.raise .beltGap 0 else p).acceptRow seq

/-- A row in sequence: queued without marks (R7). -/
def Part.rowInSequence (p : Part) (seq : Half) (r : SubRows) : Part :=
  let (row, p) := p.condition r
  (p.queueRow row).acceptRow seq

/-- The synthesized rows of a bridge: copies of the last accepted conditioned row (R8). -/
def Part.gapRow (p : Part) : CondRow := { covered := p.intake.lastRow, noisy := 0, gap := true, trunc := false }

/-- A bridged row: `d` synthesized rows, then the row (R8). -/
def Part.bridgedRow (p : Part) (d : Nat) (seq : Half) (r : SubRows) : Part :=
  let p := { p with
    intake.queue := p.intake.queue ++ List.replicate d p.gapRow
    intake.synthesized := p.intake.synthesized + BitVec.ofNat 32 d }.mark wSynthesized
  p.rowInSequence seq r

/-- A belt gap: queued with the truncate mark, BELT_GAP with argument `d` (R9). -/
def Part.beltGapRow (p : Part) (d : Nat) (seq : Half) (r : SubRows) : Part :=
  let (row, p) := p.condition r
  ((p.queueRow { row with trunc := true }).raise .beltGap (BitVec.ofNat 32 d)).acceptRow seq

/-- An old row is counted as a duplicate and ignored (R7). -/
def Part.oldRow (p : Part) : Part := { p with intake.duplicates := p.intake.duplicates + 1 }.mark wDuplicates

/-- The sequence check of a completed row (R6, R7). -/
def Part.completedRow (p : Part) (sync : Bool) (seq : Half) (r : SubRows) : Part :=
  if sync || p.intake.syncPending then p.syncRow seq r
  else
    let d := (seq - p.intake.expected).toNat
    if 32768 ≤ d then p.oldRow
    else if d = 0 then (if p.freeRows = 0 then p.overrun seq else p.rowInSequence seq r)
    else if d ≤ p.setup.unguarded.gapBridge ∧ d + 1 ≤ p.freeRows then p.bridgedRow d seq r
    else if p.freeRows = 0 then p.overrun seq
    else p.beltGapRow d seq r

/-- A header that finds no buffer or an incomplete one: the row is dropped, and a SYNC flag is remembered (R5). -/
def Part.dropHeader (p : Part) (slot : BitVec 6) (sync : Bool) : Part :=
  let p := (p.freeBuffer slot).rowIncomplete slot
  if sync then { p with intake.syncPending := true } else p

/-- A write beat at word offset 0 of a slot (R5): taken with all four lanes and marker 0xC6, else ignored. -/
def Part.header (p : Part) (slot : BitVec 6) (en : Lanes) (data : Word) : Part :=
  if p.slotInRing slot ∧ en = 0xF ∧ headerMarker data = 0xC6 then
    match p.bufferFor slot with
    | some b =>
      if b.complete then
        (p.freeBuffer slot).completedRow (headerSync data) (headerSeq data) (subRowsOf b.words p.setup.guarded.beams)
      else p.dropHeader slot (headerSync data)
    | none => p.dropHeader slot (headerSync data)
  else p

/-! ### RESTART (R19) -/

/-- Row intake's part of RESTART: sync-pending set, the queue emptied and its rows counted dropped. -/
def Part.intakeRestart (p : Part) : Part :=
  { p.countDropped p.intake.queue.length with intake.queue := [], intake.syncPending := true }

end Sys2Proof.Machine
end

