-- ==== Sys2Proof/Machine/Commands.lean ====
section
/-! DEFINITION. The eight commands of the command word (R177), taken by the setup page controller and passed to their blocks. -/

namespace Sys2Proof.Machine

/-- The record in progress is abandoned and counts as dropped (R189). -/
def Part.abandonRecord (p : Part) : Part :=
  match p.recorder.inProgress with
  | some o => { p with recorder.inProgress := none }.dropRecord o.record
  | none => p

/-- P and C become 0 and the producer-index word is dirty (R189). -/
def Part.zeroRing (p : Part) : Part := { p with recorder.p := 0, recorder.c := 0 }.mark wProducer

/-- Every waiting record is dropped (R189). -/
def Part.dropWaiting (p : Part) : Part := p.recorder.outgoing.foldl Part.dropRecord { p with recorder.outgoing := [] }

/-- The record ring changes (R189); with the new size 0 the waiting records are dropped too (log entry 33). -/
def Part.ringChange (p : Part) : Part :=
  let p := p.abandonRecord.zeroRing
  if p.setup.unguarded.ringSize = 0 then p.dropWaiting else p

/-- The unguarded fields are replaced. -/
def Part.setUnguarded (p : Part) (u : Unguarded) : Part := { p with setup.unguarded := u }

/-- A record ring whose base or size a COMMIT has changed is taken over anew (R189). -/
def Part.ringAfterCommit (p : Part) (old : Unguarded) : Part :=
  if old.ringBase ≠ p.setup.unguarded.ringBase ∨ old.ringSize ≠ p.setup.unguarded.ringSize then p.ringChange else p

/-- The unguarded fields apply at once (R179), with their effects on the record ring (R189) and the running timers (R155). -/
def Part.applyUnguarded (p : Part) (u : Unguarded) : Part :=
  ((p.setUnguarded u).ringAfterCommit p.setup.unguarded).timersAfterCommit p.haltLength p.parkLength

/-- The guarded fields of a validated COMMIT (R180): nothing to do, applied at once, or kept as the pending snapshot. Answers
the result. -/
def Part.commitGuarded (p : Part) (tag : Half) (g : Guarded) : ResultCode × Part :=
  if g = p.setup.guarded then (.done, p.setSnapshot none)
  else if p.setupQuiet then (.done, (p.applyGuarded g).setSnapshot none)
  else (.deferred, p.setSnapshot (some { fields := g, tag := tag }))

/-- A validated COMMIT answers its result. -/
def answerCommit (tag : Half) (x : ResultCode × Part) : Part := x.2.answer tag 1 x.1

/-- COMMIT (R178 to R181). -/
def Part.commit (p : Part) (tag : Half) : Part :=
  match firstOutOfRange p.setup.staged with
  | some i => p.setResult { tag := tag, code := 1, result := .range, offset := BitVec.ofNat 8 i }
  | none =>
    answerCommit tag
      ((p.applyUnguarded (Unguarded.ofStaged p.setup.staged)).commitGuarded tag (Guarded.ofStaged p.setup.staged))

/-- LOT_NEXT (R87): refused BUSY while a lot is CLOSING or for the OPEN lot's own id. -/
def Part.lotNext (p : Part) (tag : Half) : Part :=
  let id := argLow p.setup.arg1
  if p.lots.closing.isSome ∨ id = p.lots.openLot.id then p.answer tag 2 .busy
  else ((p.lotTransition id false).closingTest).answer tag 2 .done

/-- The units and the override of MANUAL_ENTER are refused RANGE (R95). -/
def manualRefused (units : Nat) (override : Option Nat) : Bool :=
  decide (units = 0) || override.any (fun k => decide (7 < k))

/-- MANUAL_ENTER (R95, R96). -/
def Part.manualEnter (p : Part) (tag : Half) : Part :=
  let units := (argLow p.setup.arg1).toNat
  let override := argOverride p.setup.arg2
  if manualRefused units override then p.answer tag 3 .range
  else
    let (number, p) := p.drawNumber
    (p.leaveUnstamped (p.manualInfo number units override) .manual).answer tag 3 .done

/-- CLEAR_STICKY (R98). -/
def Part.clearStickyCmd (p : Part) (tag : Half) : Part := p.clearSticky.answer tag 4 .done

/-- HEAD_RESET (R150). -/
def Part.headReset (p : Part) (tag : Half) : Part := (p.enterHoming .headReset).answer tag 5 .done

/-- PARK_NOW (R158): taken in HALTED as the park timer's expiry, refused STATE elsewhere. -/
def Part.parkNow (p : Part) (tag : Half) : Part :=
  match p.belt.present with
  | .halted => p.parkExpiry.answer tag 6 .done
  | .running | .parked => p.answer tag 6 .state

/-- RESTART (R182): the result is set, row intake acts at once, the tracker at once or at the end of the pass in progress. -/
def Part.restart (p : Part) (tag : Half) : Part :=
  let p := (p.answer tag 7 .done).intakeRestart
  if p.tracker.pass.isSome then { p with tracker.restartsWaiting := p.tracker.restartsWaiting + 1 } else p.takeRestart

/-- A code that names no command: no action, result UNKNOWN (R177). -/
def Part.unknownCommand (p : Part) (code : BitVec 4) (tag : Half) : Part := p.answer tag code .unknown

/-- A write beat to the command word (R177): a command with all four lanes enabled, else ignored. -/
def Part.commandBeat (p : Part) (en : Lanes) (data : Word) : Part :=
  let tag := cmdTag data
  if en = 0xF then
    match (cmdCode data).toNat with
    | 1 => p.commit tag
    | 2 => p.lotNext tag
    | 3 => p.manualEnter tag
    | 4 => p.clearStickyCmd tag
    | 5 => p.headReset tag
    | 6 => p.parkNow tag
    | 7 => p.restart tag
    | _ => p.unknownCommand (cmdCode data) tag
  else p

end Sys2Proof.Machine
end

