-- ==== Sys2Proof/Machine/Records.lean ====
section
/-! DEFINITION. The record writer and the status writer (11.3, 11.4) as producers of the posted write queue, the queue itself
(9.4), and the part words it puts on the memory port. -/

namespace Sys2Proof.Machine

/-! ### The record ring (R186 to R189) -/

/-- The ring is full (R186). -/
def Recorder.full (r : Recorder) (n : Nat) : Bool := decide ((r.p + n - r.c) % n = n - 1)

/-- The record at the front moves out when the ring is on and not full and no record is in progress (R188); with the ring off it
is dropped (R189). -/
def Part.moveOut (p : Part) : Part :=
  match p.recorder.inProgress, p.recorder.outgoing with
  | none, r :: rest =>
    if p.setup.unguarded.ringSize = 0 then { p with recorder.outgoing := rest }.dropRecord r
    else if p.recorder.full p.setup.unguarded.ringSize then p
    else { p with recorder.outgoing := rest, recorder.inProgress := some { record := r, next := 0 } }
  | _, _ => p

/-- A write beat to the consumer-index word (R186): the held copy takes the enabled lanes of bits 10:0, and C takes its value if
that is below N. -/
def Part.writeConsumer (p : Part) (en : Lanes) (data : Word) : Part :=
  if en = 0 then p
  else
    let held := (mergeLanes (p.recorder.heldC.setWidth 32) data en).setWidth 11
    { p with
      recorder.heldC := held
      recorder.c := if held.toNat < p.setup.unguarded.ringSize then held.toNat else p.recorder.c }

/-- The address of word `k` of record P (R188, 11.4). -/
def Part.recordAddr (p : Part) (k : Nat) : BitVec 24 :=
  BitVec.ofNat 24 (p.setup.unguarded.ringBase + 64 * p.recorder.p + 4 * k)

/-- The producer index after P (R188). -/
def Part.nextProducer (p : Part) : Nat := (p.recorder.p + 1) % p.setup.unguarded.ringSize

/-! ### The posted write queue (R171) -/

/-- Places taken: the entries of the queue and the one whose write is not complete yet (R171). -/
def MemPath.placesTaken (m : MemPath) : Nat :=
  m.queue.length +
    (match m.port with
     | some (.partWord _) => 1
     | some (.upstream _ _) | none => 0)

/-- One of the 16 places is free (R171). -/
def MemPath.hasPlace (m : MemPath) : Bool := decide (m.placesTaken < 16)

/-- A word is added at the back of the queue (R171). -/
def State.post (s : State) (addr : BitVec 24) (data : Word) : State :=
  { s with path.queue := s.path.queue ++ [{ addr := addr, data := data }] }

/-- The byte address of status word `w` (11.3). -/
def MemPath.statusAddr (m : MemPath) (w : Nat) : BitVec 24 := BitVec.ofNat 24 (m.base + 0x140 + 4 * w)

/-- The status writer, given a place, posts the lowest dirty word with its values now (R185). -/
def State.postStatus (s : State) : State :=
  match s.part.dirty with
  | [] => s
  | w :: rest => { s.post (s.path.statusAddr w) (s.part.statusWord w) with part.dirty := rest }

/-- The record writer, given a place, hands in the next word of the record in progress (R188). -/
def State.postRecordWord (s : State) : State :=
  match s.part.recorder.inProgress with
  | some o =>
    if o.next < 16 then
      { s.post (s.part.recordAddr o.next) (o.record.words.getD o.next 0) with
        part.recorder.inProgress := some { o with next := o.next + 1 } }
    else s
  | none => s

/-- The record writer, given a place, hands in the producer-index word after word 15, and P advances (R188). The word that shows
P has changed and is dirty (R185), though the value just handed in is the new one (log entry 35). -/
def State.postProducerIndex (s : State) : State :=
  match s.part.recorder.inProgress with
  | some o =>
    if o.next < 16 then s
    else
      let n := s.part.nextProducer
      let s := s.post (s.path.statusAddr wProducer) (field 0 n)
      { s with part := { s.part with recorder.p := n, recorder.inProgress := none }.mark wProducer }
  | none => s

/-- The record writer hands in whichever word is next (R188). -/
def State.postRecord (s : State) : State :=
  match s.part.recorder.inProgress with
  | some o => if o.next < 16 then s.postRecordWord else s.postProducerIndex
  | none => s

/-- The status writer has a word to hand in (R185). -/
def Part.statusWaits (p : Part) : Bool := !p.dirty.isEmpty

/-- The record writer has a word to hand in (R188). -/
def Part.recordWaits (p : Part) : Bool := p.recorder.inProgress.isSome

/-- The producer that takes a place freed out of 16: the one that waits, the turn's if both do (R171). -/
def State.placeTaker (s : State) : Option Producer :=
  match s.part.statusWaits, s.part.recordWaits with
  | true, true => some s.path.turn
  | true, false => some .statusWriter
  | false, true => some .recordWriter
  | false, false => none

/-- A freed place goes to its taker, and the turn to the other producer; with none waiting the turn stays (R171). -/
def State.offerPlace (s : State) : State :=
  match s.placeTaker with
  | some .statusWriter => { s.postStatus with path.turn := .recordWriter }
  | some .recordWriter => { s.postRecord with path.turn := .statusWriter }
  | none => s

/-! ### Part words on the memory port (R171, R172) -/

/-- The oldest part word leaves the queue for the free memory port; every part word written sets the fairness count to 0
(R171, R173). -/
def State.startPartWord (s : State) : State :=
  match s.path.port, s.path.queue with
  | none, w :: rest => { s with path.port := some (.partWord w), path.queue := rest, path.fairness := 0 }
  | _, _ => s

/-- The part word on the memory port completes: it stands in the RAM, and its place frees; with all 16 taken until now the place
goes to a producer that waits (R171). The producer's word enters in this same step, so before the drain test of a transaction
that waits: R172 allows either order (log entry 40). -/
def State.completePartWord (s : State) : State :=
  match s.path.port with
  | some (.partWord w) =>
    let s' := { s with path.ram := s.path.ram.writeWord w.addr 0xF w.data, path.port := none }
    if s.path.hasPlace then s' else s'.offerPlace
  | some (.upstream _ _) | none => s

/-- So many part words are written, one after another (R172). -/
def State.writePartWords (s : State) : Nat → State
  | 0 => s
  | n + 1 => s.startPartWord.completePartWord.writePartWords n

end Sys2Proof.Machine
end

