-- ==== Sys2Proof/Machine/Path.lean ====
section
/-! DEFINITION. The upstream side of the memory path (chapter 9): window decoding, the arbiter's decision for an upstream
transaction, and the carrying of its beats. -/

namespace Sys2Proof.Machine

/-! ### Window decoding (9.3) -/

/-- The word number of a word address. -/
def wordNumber (addr : BitVec 24) : BitVec 22 := addr.extractLsb' 2 22

/-- A word address lies in the row-ring window (R1). -/
def Guarded.inRowRing (g : Guarded) (a : Nat) : Bool :=
  decide (g.rowRingBase ≤ a) && decide (a < g.rowRingBase + 256 * g.slotCount)

/-- Slot number of a word address in the row-ring window (R1). -/
def Guarded.slotOf (g : Guarded) (a : Nat) : BitVec 6 := BitVec.ofNat 6 ((a - g.rowRingBase) / 256)

/-- Word offset in the slot of a word address in the row-ring window (R1). -/
def Guarded.offsetOf (g : Guarded) (a : Nat) : BitVec 6 := BitVec.ofNat 6 ((a - g.rowRingBase) % 256 / 4)

/-- A write beat in the row-ring window, sorted by its word offset (R2). -/
def Part.rowSlotBeat (p : Part) (slot offset : BitVec 6) (en : Lanes) (data : Word) : Part :=
  if offset = 0 then p.header slot en data else p.beamWord slot offset en data

/-- Row intake's share of a write beat (R168). -/
def Part.rowRingBeat (p : Part) (a : Nat) (en : Lanes) (data : Word) : Part :=
  let g := p.setup.guarded
  if g.inRowRing a then p.rowSlotBeat (g.slotOf a) (g.offsetOf a) en data else p

/-- The setup page controller's share of a write beat at word `i` of the setup area (R175 to R177): words 0x0C0 to 0x12C hold no
field, and the consumer-index word is the record writer's. -/
def Part.setupBeat (p : Part) (i : Nat) (en : Lanes) (data : Word) : Part :=
  if i < 48 then p.writeStaged i en data
  else if i = 77 then p.writeArgument .one en data
  else if i = 78 then p.writeArgument .two en data
  else if i = 79 then p.commandBeat en data
  else p

/-- The status writer's share of a write beat at status word `w`: the word is dirty (R170). -/
def Part.statusBlockBeat (p : Part) (w : Nat) : Part := p.mark w

/-- What a write beat at word `i` of the setup page does in the block it is handed to (R168). -/
def Part.pageBeat (p : Part) (i : Nat) (en : Lanes) (data : Word) : Part :=
  if i = 76 then p.writeConsumer en data
  else if i < 80 then p.setupBeat i en data
  else p.statusBlockBeat (i - 80)

/-- A word address lies in the setup page (R167). -/
def inPage (base a : Nat) : Bool := decide (base ≤ a) && decide (a < base + 512)

/-- A write beat is handed to every block concerned, by the windows as they stand (R168, R169). A beat with no lane enabled falls
in no region (R165). The marks go before the setup page, whose command may move the windows (log entry 16). -/
def Part.writeBeat (p : Part) (base : Nat) (addr : BitVec 24) (en : Lanes) (data : Word) : Part :=
  if en = 0 then p
  else
    let p := p.rowRingBeat addr.toNat en data
    let p := p.markBeat true (wordNumber addr) en data
    if inPage base addr.toNat then p.pageBeat ((addr.toNat - base) / 4) en data else p

/-- A read beat is handed to the lot and mark unit alone (R168). -/
def Part.readBeat (p : Part) (addr : BitVec 24) (en : Lanes) (data : Word) : Part :=
  if en = 0 then p else p.markBeat false (wordNumber addr) en data

/-! ### Beats (R164) -/

/-- A write beat is carried to the RAM unchanged and handed over as it passes. -/
def State.carryWrite (s : State) (addr : BitVec 24) (b : Beat) : State :=
  { s with
    path.ram := s.path.ram.writeWord addr b.enables b.data
    part := s.part.writeBeat s.path.base addr b.enables b.data }

/-- A read beat's data is carried back unchanged, and the beat handed over when it returns. -/
def State.carryRead (s : State) (addr : BitVec 24) (b : Beat) : State :=
  { s with
    path.lineData := s.path.lineData ++ [s.path.ram.readWord addr]
    part := s.part.readBeat addr b.enables (s.path.ram.readWord addr) }

/-- One beat passes. -/
def State.carryBeat (s : State) (write : Bool) (addr : BitVec 24) (b : Beat) : State :=
  if write then s.carryWrite addr b else s.carryRead addr b

/-- Beats pass one after another; `k` is the number of the first. -/
def State.carryBeats (s : State) (t : Transaction) : List Beat → Nat → State
  | [], _ => s
  | b :: bs, k => (s.carryBeat t.write (beatAddr t.start k) b).carryBeats t bs (k + 1)

/-- The next `count` beats of the transaction on the port pass, of which `passed` have passed already; after the last one the port
is free. -/
def State.carryOn (s : State) (t : Transaction) (passed count : Nat) : State :=
  let s := s.carryBeats t ((t.beats.drop passed).take count) passed
  if t.beats.length ≤ passed + count then { s with path.port := none }
  else { s with path.port := some (.upstream t (passed + count)) }

/-! ### The arbiter (R172, R173) -/

/-- The fairness rule calls for a part word (R173). -/
def MemPath.fairnessCalls (m : MemPath) : Bool := decide (8 ≤ m.queue.length) && decide (m.fairness = 8)

/-- How many entries stand in the queue up to and including the newest one at an address the transaction uses (R172). -/
def drainCount (queue : List Posted) (addrs : List (BitVec 24)) : Nat :=
  queue.length - (queue.reverse.takeWhile (fun w => !addrs.contains w.addr)).length

/-- A fairness word, if the rule calls for one (R173). -/
def State.fairnessWord (s : State) : State := if s.path.fairnessCalls then s.writePartWords 1 else s

/-- The drain that a transaction's addresses call for, tested once (R172). -/
def State.drain (s : State) (t : Transaction) : State := s.writePartWords (drainCount s.path.queue (beatAddrs t))

/-- The transaction is issued to the memory port (R164, R173); a read's data is collected afresh. -/
def State.issue (s : State) (t : Transaction) : State :=
  { s with
    path.port := some (.upstream t 0)
    path.fairness := min 8 (s.path.fairness + 1)
    path.lineData := if t.write then s.path.lineData else [] }

/-- The memory port completes what it is doing: a part word, or the rest of an upstream transaction (R164, R172). -/
def State.finishPort (s : State) : State :=
  match s.path.port with
  | none => s
  | some (.partWord _) => s.completePartWord
  | some (.upstream t passed) => s.carryOn t passed (t.beats.length - passed)

/-- The arbiter takes up an upstream transaction: fairness word, drain, issue (R172, R173). A producer's word that takes the place
a completing part word frees has entered the queue before the drain test (log entry 40). -/
def State.takeUp (s : State) (t : Transaction) : State := ((s.finishPort.fairnessWord).drain t).issue t

/-- How many beats a command lets pass: those that are left, or as many as it says before it leaves off (log entry 7). -/
def beatsToPass (pause : Option Nat) (left : Nat) : Nat := pause.elim left (min left)

/-- An upstream transaction is taken up and its beats carried, or the one in progress goes on (R164). -/
def State.upstream (s : State) (request : Option Transaction) (pause : Option Nat) : State :=
  match request with
  | some t => (s.takeUp t).carryOn t 0 (beatsToPass pause t.beats.length)
  | none =>
    match s.path.port with
    | some (.upstream t passed) => s.carryOn t passed (beatsToPass pause (t.beats.length - passed))
    | some (.partWord _) | none => s

end Sys2Proof.Machine
end

