-- ==== Sys2Proof/Machine/PathCmds.lean ====
section
/-! DEFINITION. The meanings of the memory path's commands, of the writers' hand-ins, and of power-on reset (chapters 9 to 11). -/

namespace Sys2Proof.Machine

/-- A command's effect on the blocks beside the memory path; the path and the queue of commands stay. -/
def State.onPart (s : State) (f : Part → Part) : State := { s with part := f s.part }

/-- Power-on values of every block and the path's; the RAM, the waiting commands and the model's counter of free values are not
the part's and stay (log entry 24). A part word already on the memory port is dropped like the queued ones: R174 speaks of words
in the queue and of upstream beats, not of it (log entry 39). -/
def State.powerOn (s : State) (straps : BitVec 3) : State :=
  { s with part := { Part.powerOn with free := s.part.free }, path := MemPath.powerOn straps s.path.ram }

/-- POWER_ON_RESET (R183, R18, R47, R65, R85, R107, R110, R130, R142, R152, R174, R190). -/
def execPowerOnReset (straps : BitVec 3) (s : State) : Host.Outcome State Fault Refusal := .next (s.powerOn straps)

/-- UPSTREAM_TRANSACTION (R164 to R173). -/
def execUpstreamTransaction (request : Option Transaction) (pause : Option Nat) (s : State) :
    Host.Outcome State Fault Refusal :=
  if request.all Transaction.wellFormed then .next (s.upstream request pause) else .refused .illFormed

/-- POSTED_WORD_WRITE: in a gap the oldest part word is put on the free port (R172). -/
def execPostedWordWrite (s : State) : Host.Outcome State Fault Refusal := .next s.startPartWord

/-- PART_WORD_COMPLETE (R171). -/
def execPartWordComplete (s : State) : Host.Outcome State Fault Refusal := .next s.completePartWord

/-- RECORD_MOVE_OUT (R188, R189). -/
def execRecordMoveOut (s : State) : Host.Outcome State Fault Refusal := .next (s.onPart Part.moveOut)

/-- RECORD_WORD_HAND_IN: given a free place; without one the record writer waits (R171, R188). -/
def execRecordWordHandIn (s : State) : Host.Outcome State Fault Refusal :=
  .next (if s.path.hasPlace then s.postRecordWord else s)

/-- PRODUCER_INDEX_HAND_IN: given a free place (R171, R188). -/
def execProducerIndexHandIn (s : State) : Host.Outcome State Fault Refusal :=
  .next (if s.path.hasPlace then s.postProducerIndex else s)

/-- STATUS_WORD_POST: given a free place (R171, R185). -/
def execStatusWordPost (s : State) : Host.Outcome State Fault Refusal :=
  .next (if s.path.hasPlace then s.postStatus else s)

/-- CONSUMER_INDEX_WRITE (R186). -/
def execConsumerIndexWrite (en : Lanes) (data : Word) (s : State) : Host.Outcome State Fault Refusal :=
  .next (s.onPart (fun p => p.writeConsumer en data))

/-- STATUS_BLOCK_WRITE (R170). -/
def execStatusBlockWrite (word : BitVec 6) (s : State) : Host.Outcome State Fault Refusal :=
  if word.toNat < 48 then .next (s.onPart (fun p => p.statusBlockBeat word.toNat)) else .refused .illFormed

end Sys2Proof.Machine
end

