-- ==== Sys2Proof/Machine/LineCmds.lean ====
section
/-! DEFINITION. The meanings of row intake's beats, the row pass, the mark-window match, the belt timers and the frames of the
head link (chapters 1 to 8). -/

namespace Sys2Proof.Machine

/-- BEAM_WORD_WRITE (R2 to R4). -/
def execBeamWordWrite (slot offset : BitVec 6) (en : Lanes) (data : Word) (s : State) : Host.Outcome State Fault Refusal :=
  .next (s.onPart (fun p => p.beamWord slot offset en data))

/-- HEADER_WRITE (R5 to R17). -/
def execHeaderWrite (slot : BitVec 6) (en : Lanes) (data : Word) (s : State) : Host.Outcome State Fault Refusal :=
  .next (s.onPart (fun p => p.header slot en data))

/-- ROW_PASS (R21 to R67, R109 to R121). -/
def execRowPass (units : Option Nat) (s : State) : Host.Outcome State Fault Refusal :=
  .next (s.onPart (fun p => p.rowPass units))

/-- MARK_WINDOW_MATCH (R97 to R103). -/
def execMarkWindowMatch (write : Bool) (wordAddr : BitVec 22) (en : Lanes) (data : Word) (s : State) :
    Host.Outcome State Fault Refusal :=
  .next (s.onPart (fun p => p.markBeat write wordAddr en data))

/-- HALT_TIMER_EXPIRY (R156). -/
def execHaltTimerExpiry (s : State) : Host.Outcome State Fault Refusal := .next (s.onPart Part.takeHaltExpiry)

/-- PARK_TIMER_EXPIRY (R157). -/
def execParkTimerExpiry (s : State) : Host.Outcome State Fault Refusal := .next (s.onPart Part.parkExpiry)

/-- The frame sequencer at a boundary; a boundary with a frame still in progress does not come about (log entry 26). -/
def Part.boundaryIfIdle (p : Part) : Part := if p.head.frame.isSome then p else p.boundary

/-- FRAME_BOUNDARY (R132, R134, R135). -/
def execFrameBoundary (s : State) : Host.Outcome State Fault Refusal := .next (s.onPart Part.boundaryIfIdle)

/-- The end of the frame in progress; without one there is nothing to judge (log entry 26). -/
def Part.endFrameIfSent (p : Part) (words : List (BitVec 16)) : Part :=
  match p.head.frame with
  | some f => p.endFrame f.latched words
  | none => p

/-- FRAME_END (R138 to R148). -/
def execFrameEnd (carriage wheel1 wheel2 wheel3 wheel4 hammer : BitVec 16) (s : State) : Host.Outcome State Fault Refusal :=
  .next (s.onPart (fun p => p.endFrameIfSent [carriage, wheel1, wheel2, wheel3, wheel4, hammer]))

/-- NO_STRIKE (R146, R141). -/
def execNoStrike (s : State) : Host.Outcome State Fault Refusal := .next (s.onPart Part.windowRunsOut)

end Sys2Proof.Machine
end

