-- ==== Sys2Proof/Machine/PageCmds.lean ====
section
/-! DEFINITION. The meanings of the setup page's writes and of the commands of its command word (chapter 10). -/

namespace Sys2Proof.Machine

/-- SETUP_WORD_WRITE (R175). -/
def execSetupWordWrite (word : BitVec 7) (en : Lanes) (data : Word) (s : State) : Host.Outcome State Fault Refusal :=
  if word.toNat < 80 then .next (s.onPart (fun p => p.setupBeat word.toNat en data)) else .refused .illFormed

/-- ARGUMENT_WORD_WRITE (R176). -/
def execArgumentWordWrite (which : ArgWord) (en : Lanes) (data : Word) (s : State) : Host.Outcome State Fault Refusal :=
  .next (s.onPart (fun p => p.writeArgument which en data))

/-- COMMIT (R178 to R181). -/
def execCommit (tag : Half) (s : State) : Host.Outcome State Fault Refusal := .next (s.onPart (fun p => p.commit tag))

/-- LOT_NEXT (R87). -/
def execLotNext (tag : Half) (s : State) : Host.Outcome State Fault Refusal := .next (s.onPart (fun p => p.lotNext tag))

/-- MANUAL_ENTER (R95, R96). -/
def execManualEnter (tag : Half) (s : State) : Host.Outcome State Fault Refusal :=
  .next (s.onPart (fun p => p.manualEnter tag))

/-- CLEAR_STICKY (R98). -/
def execClearSticky (tag : Half) (s : State) : Host.Outcome State Fault Refusal :=
  .next (s.onPart (fun p => p.clearStickyCmd tag))

/-- HEAD_RESET (R150). -/
def execHeadReset (tag : Half) (s : State) : Host.Outcome State Fault Refusal := .next (s.onPart (fun p => p.headReset tag))

/-- PARK_NOW (R158). -/
def execParkNow (tag : Half) (s : State) : Host.Outcome State Fault Refusal := .next (s.onPart (fun p => p.parkNow tag))

/-- RESTART (R182). -/
def execRestart (tag : Half) (s : State) : Host.Outcome State Fault Refusal := .next (s.onPart (fun p => p.restart tag))

/-- UNKNOWN_COMMAND (R177). -/
def execUnknownCommand (code : BitVec 4) (tag : Half) (s : State) : Host.Outcome State Fault Refusal :=
  if isUnknownCode code then .next (s.onPart (fun p => p.unknownCommand code tag)) else .refused .illFormed

end Sys2Proof.Machine
end

