-- ==== Sys2Proof/Machine/Dispatch.lean ====
section
/-! DEFINITION. The command dispatch: one arm per row of spec/opcode_table.json. -/

namespace Sys2Proof.Machine

/-- A command's effect on everything but the queue of waiting commands. -/
def exec (i : Instr) (s : State) : Host.Outcome State Fault Refusal :=
  match i with
  | .powerOnReset straps => Sys2Proof.Machine.execPowerOnReset straps s
  | .upstreamTransaction request pause => Sys2Proof.Machine.execUpstreamTransaction request pause s
  | .postedWordWrite => Sys2Proof.Machine.execPostedWordWrite s
  | .partWordComplete => Sys2Proof.Machine.execPartWordComplete s
  | .beamWordWrite slot offset en data => Sys2Proof.Machine.execBeamWordWrite slot offset en data s
  | .headerWrite slot en data => Sys2Proof.Machine.execHeaderWrite slot en data s
  | .rowPass units => Sys2Proof.Machine.execRowPass units s
  | .recordMoveOut => Sys2Proof.Machine.execRecordMoveOut s
  | .recordWordHandIn => Sys2Proof.Machine.execRecordWordHandIn s
  | .producerIndexHandIn => Sys2Proof.Machine.execProducerIndexHandIn s
  | .statusWordPost => Sys2Proof.Machine.execStatusWordPost s
  | .setupWordWrite word en data => Sys2Proof.Machine.execSetupWordWrite word en data s
  | .argumentWordWrite which en data => Sys2Proof.Machine.execArgumentWordWrite which en data s
  | .consumerIndexWrite en data => Sys2Proof.Machine.execConsumerIndexWrite en data s
  | .statusBlockWrite word => Sys2Proof.Machine.execStatusBlockWrite word s
  | .markWindowMatch write wordAddr en data => Sys2Proof.Machine.execMarkWindowMatch write wordAddr en data s
  | .commit tag => Sys2Proof.Machine.execCommit tag s
  | .lotNext tag => Sys2Proof.Machine.execLotNext tag s
  | .manualEnter tag => Sys2Proof.Machine.execManualEnter tag s
  | .clearSticky tag => Sys2Proof.Machine.execClearSticky tag s
  | .headReset tag => Sys2Proof.Machine.execHeadReset tag s
  | .parkNow tag => Sys2Proof.Machine.execParkNow tag s
  | .restart tag => Sys2Proof.Machine.execRestart tag s
  | .unknownCommand code tag => Sys2Proof.Machine.execUnknownCommand code tag s
  | .haltTimerExpiry => Sys2Proof.Machine.execHaltTimerExpiry s
  | .parkTimerExpiry => Sys2Proof.Machine.execParkTimerExpiry s
  | .frameBoundary => Sys2Proof.Machine.execFrameBoundary s
  | .frameEnd c w1 w2 w3 w4 h => Sys2Proof.Machine.execFrameEnd c w1 w2 w3 w4 h s
  | .noStrike => Sys2Proof.Machine.execNoStrike s

end Sys2Proof.Machine
end

