-- ==== Sys2Proof/Machine/Step.lean ====
section
/-! DEFINITION. One step: the command at the front of the queue, or the passing of a microsecond. -/

namespace Sys2Proof.Machine

/-- Take the command at the front of the queue and answer what it does on the queue's rest; with none waiting a microsecond
passes (log entry 3). -/
def step (s : State) : Host.Outcome State Fault Refusal :=
  match s.pending with
  | [] => .next { s with part := s.part.tick }
  | c :: rest => exec c { s with pending := rest }

/-- The command a word spells at the front of the queue; the table gives no row bits, so no word spells one (log entry 32). -/
def State.withFetchWord (s : State) (nbits w : Nat) : State :=
  match decodeTableWord nbits w with
  | some c => { s with pending := c :: s.pending }
  | none => s

end Sys2Proof.Machine
end

