-- ==== Sys2Proof/Safety.lean ====
section
/-! DEFINITION. What every state of a run keeps: the canonical RAM, the bounds of the posted write queue, and the bounds and
agreements inside the part that the rules state. -/

namespace Sys2Proof.Machine

/-- The RAM is in its canonical form. -/
def State.ramOk (s : State) : Prop := Memory.wf s.path.ram = true

/-- At most 16 places of the posted write queue are taken (R171), and the fairness count is at most 8 (R173). -/
def MemPath.bounded (m : MemPath) : Prop := m.placesTaken ≤ 16 ∧ m.fairness ≤ 8

/-- At most 2 HELD buffers and 4 queued rows (chapter 1). -/
def Intake.ok (i : Intake) : Prop := i.buffers.length ≤ 2 ∧ i.queue.length ≤ 4

/-- The hide table has 16 entries, and the hide-number counter is never 0 (R28). -/
def Tracker.ok (t : Tracker) : Prop := t.table.length = 16 ∧ t.counter ≠ 0

/-- At most 8 jobs (R116). -/
def Scheduler.ok (s : Scheduler) : Prop := s.current.toList.length + s.waiting.length ≤ 8

/-- The six used slots all hold a command, in the link and in a frame in progress (R132, R134), and no parity run stands at 3: the
third error makes it 0 (R139). -/
def HeadLink.ok (h : HeadLink) : Prop :=
  h.slots.length = 6 ∧ (∀ f, h.frame = some f → f.latched.length = 6) ∧ ∀ s ∈ h.slots, s.run ≤ 2

/-- The halt timer runs in RUNNING only and always there, the park timer in HALTED (R153, R154), and the last state is never the
present one (R152). -/
def Belt.ok (b : Belt) : Prop :=
  (b.halt.isSome ↔ b.present = .running) ∧ (b.park.isSome ↔ b.present = .halted) ∧ b.last ≠ some b.present

/-- The OPEN and the CLOSING lot have different ids (R85); at most 16 marks wait (R103); at most 16 recent hides (R105). -/
def LotUnit.ok (l : LotUnit) : Prop :=
  (∀ c, l.closing = some c → c.id ≠ l.openLot.id) ∧ l.markQueue.length ≤ 16 ∧ l.recent.length ≤ 16

/-- At most 8 records wait (R187); with the ring on, P and C are below its size (R186); with it off, both are 0 and no record is
in progress (R189). -/
def Recorder.ok (r : Recorder) (ringSize : Nat) : Prop :=
  r.outgoing.length ≤ 8 ∧ (ringSize ≠ 0 → r.p < ringSize ∧ r.c < ringSize) ∧
    (ringSize = 0 → r.p = 0 ∧ r.c = 0 ∧ r.inProgress = none)

/-- Every bound and agreement of the part. -/
def Part.ok (p : Part) : Prop :=
  p.intake.ok ∧ p.tracker.ok ∧ p.sched.ok ∧ p.head.ok ∧ p.belt.ok ∧ p.lots.ok ∧ p.recorder.ok p.setup.unguarded.ringSize

/-- The commands that act inside the part alone: neither the memory path nor the RAM behind it has a share in them. -/
def partOnly : Instr → Bool
  | .powerOnReset _ | .upstreamTransaction _ _ | .postedWordWrite | .partWordComplete | .recordWordHandIn
  | .producerIndexHandIn | .statusWordPost => false
  | _ => true

/-- The sum of a tally's grade counts (R91). -/
def Tally.gradeSum (t : Tally) : Nat := t.bands.sum + t.small + t.oversize + t.review + t.ungraded

/-- Every count of a tally fits its width: 16 bits, total units 32 (5.3). -/
def Tally.fits (t : Tally) : Prop :=
  t.hides ≤ 65535 ∧ t.births ≤ 65535 ∧ t.totalUnits ≤ 4294967295 ∧ t.stamped ≤ t.hides ∧ t.unstamped ≤ t.hides ∧
    t.manual ≤ t.hides ∧ t.marks ≤ 65535

/-- All of it. -/
def State.ok (s : State) : Prop := s.ramOk ∧ s.path.bounded ∧ s.part.ok

end Sys2Proof.Machine
end

