-- ==== Sys2Proof/Certificates/Slice0/Obligations.lean ====
section
/-! DEFINITION. The statements about the model that are to be proved, by chapter of the spec. -/

open Sys2Proof Sys2Proof.Machine

/-! ### The machine as a whole -/

/-- A step with a command at the front of the queue is that command on the queue's rest. -/
def Obligations.StepRunsTheFrontCommand : Prop :=
  ∀ (c : Instr) (s : State), step { s with pending := c :: s.pending } = exec c s

/-- The model's choice (log entry 3): with no command waiting, a microsecond passes. A running timer counts it; one that reaches
its length expires (R152, R156, R157). -/
def Obligations.IdleStepCountsTime : Prop :=
  ∀ s : State, s.pending = [] →
    (timerDue (s.part.belt.halt.map (· + 1)) s.part.haltLength = false →
      timerDue (s.part.belt.park.map (· + 1)) s.part.parkLength = false →
      step s = .next { s with
        part.belt.halt := s.part.belt.halt.map (· + 1)
        part.belt.park := s.part.belt.park.map (· + 1) }) ∧
    (∀ e, s.part.belt.halt = some e → s.part.belt.present = .running → s.part.haltLength ≤ e + 1 →
      ∃ t, step s = .next t ∧
        t.part.belt = { present := .halted, last := some .running, halt := none, park := some 0 }) ∧
    (∀ e, s.part.belt.park = some e → s.part.belt.present = .halted → s.part.belt.halt = none →
      s.part.parkLength ≤ e + 1 →
      ∃ t, step s = .next t ∧
        t.part.belt = { present := .parked, last := some .halted, halt := none, park := none })

/-- Every well-formed command is answered with a next state in which the waiting commands are kept (one that finds nothing due
changes nothing, log entry 5); an ill-formed one is refused (log entry 25). -/
def Obligations.WellFormedCommandsComplete : Prop :=
  ∀ (i : Instr) (s : State),
    (i.wellFormed = true → ∃ t, exec i s = .next t ∧ t.pending = s.pending) ∧
    (i.wellFormed = false → exec i s = .refused .illFormed)

/-- The commands that act inside the part leave the memory path and every byte of the RAM. For the rows that hand a write beat to
its block this is the model's choice (log entry 6): R168 has such a beat written to the RAM too, and that carrying is
UPSTREAM_TRANSACTION's alone. -/
def Obligations.PartCommandsLeaveThePath : Prop :=
  ∀ (i : Instr) (s : State), i.wellFormed = true → partOnly i = true →
    ∃ t, exec i s = .next t ∧ t.path = s.path ∧ t.pending = s.pending ∧
      ∀ a, t.path.ram.read a = s.path.ram.read a

/-- Every step keeps the RAM in its canonical form. The form is the model's choice (log entry 8): addresses strictly rising inside
16 megabytes, and no byte listed that equals what an unlisted one reads as. -/
def Obligations.RamStaysCanonical : Prop :=
  ∀ s t : State, s.ramOk → step s = .next t → t.ramOk

/-- Every step keeps every bound and agreement of State.ok. -/
def Obligations.EveryBoundIsKept : Prop :=
  ∀ s t : State, s.ok → step s = .next t → t.ok

/-- The state after power-on reset has every bound and agreement of State.ok. -/
def Obligations.ResetMeetsEveryBound : Prop := State.reset.ok

/-- The model's reading (log entry 1): a pass begun for so many units and then run to its end, or over within them, is the pass run
whole. -/
def Obligations.ResumedPassIsTheWholePass : Prop :=
  ∀ (s t : State) (n : Nat), exec (.rowPass (some n)) s = .next t →
    (t.part.tracker.pass.isSome = true → exec (.rowPass none) t = exec (.rowPass none) s) ∧
    (t.part.tracker.pass = none → exec (.rowPass none) s = .next t)

/-- POWER_ON_RESET, whatever the state before: the part at its power-on values, the path as R174 says, the base by the straps
(R167). RAM, waiting commands and the counter of free values stay (log entry 24); a part word on the memory port is lost like the
queued ones (log entry 39). -/
def Obligations.PowerOnReset : Prop :=
  (∀ (straps : BitVec 3) (s : State),
    exec (.powerOnReset straps) s = .next
      { part := { Part.powerOn with free := s.part.free }
        path := { base := 0x1FF000 + 0x200000 * straps.toNat, port := none, queue := [], fairness := 0,
                  turn := .statusWriter, lineData := [], ram := s.path.ram }
        pending := s.pending }) ∧
  Part.powerOn.intake = { buffers := [], expected := 0, syncPending := true, lastRow := 0, queue := [], autoMask := 0,
                          stuck := List.replicate 384 0, accepted := 0, synthesized := 0, dropped := 0, duplicates := 0 } ∧
  Part.powerOn.tracker = { rowIndex := 0, prev := [], cur := [], table := List.replicate 16 none, spill := none, counter := 1,
                           closed := 0, pass := none, noticeWaiting := false, restartsWaiting := 0 } ∧
  Part.powerOn.holes = { table := List.replicate 32 none, prevRuns := [], curRuns := [] } ∧
  Part.powerOn.sched = { heights := List.replicate 384 0, current := none, waiting := [] } ∧
  Part.powerOn.head = { framePeriod := 1000, gated := true, frame := none, hammerCount := none, state := .unknown,
                        inHand := none, window := 0, errors := 0,
                        slots := [SlotCmd.hold, .hold, .hold, .hold, .hold, .safe].map
                          (fun c => { held := c, lastSent := c, latest := .none, run := 0 }) } ∧
  Part.powerOn.belt = { present := .parked, last := none, halt := none, park := none } ∧
  (let tally : Tally := { hides := 0, births := 0, totalUnits := 0, stamped := 0, unstamped := 0, bands := List.replicate 8 0,
                          small := 0, oversize := 0, review := 0, ungraded := 0, manual := 0, marks := 0 }
   Part.powerOn.lots = { openLot := { id := 0, startRow := 0, tally := tally, calChanged := false, recordsDropped := false,
                                      packAuto := false },
                         closing := none, packCounter := 0, packPending := false, sticky := 0, markDropSticky := false,
                         markQueue := [], recent := [], marksDropped := 0 }) ∧
  (Part.powerOn.setup.snapshot = none ∧ Part.powerOn.setup.arg1 = 0 ∧ Part.powerOn.setup.arg2 = 0 ∧
    Part.powerOn.setup.result = { tag := 0, code := 0, result := .done, offset := 0 } ∧
    firstOutOfRange Part.powerOn.setup.staged = none ∧
    Guarded.ofStaged Part.powerOn.setup.staged = Part.powerOn.setup.guarded ∧
    Unguarded.ofStaged Part.powerOn.setup.staged = Part.powerOn.setup.unguarded) ∧
  (Part.powerOn.recorder = { outgoing := [], inProgress := none, p := 0, c := 0, heldC := 0, dropped := 0 } ∧
    Part.powerOn.dirty = List.range 48)

/-- R47 whole: what power-on reset leaves in the tracker, and what the first row then does. -/
def Obligations.PowerOnTracker : Prop :=
  ∀ (straps : BitVec 3) (s : State), ∃ t, exec (.powerOnReset straps) s = .next t ∧
    (∀ h ∈ t.part.tracker.table, h = none) ∧ t.part.tracker.table.length = 16 ∧ t.part.tracker.spill = none ∧
    t.part.tracker.prev = [] ∧ t.part.tracker.cur = [] ∧ t.part.tracker.rowIndex = 0 ∧ t.part.tracker.counter = 1 ∧
    t.part.tracker.closed = 0 ∧ t.part.tracker.pass = none ∧
    t.part.recorder.outgoing = [] ∧ t.part.recorder.inProgress = none ∧
    ∀ (r : CondRow) (rest : List CondRow),
      let q := ({ t.part with intake.queue := r :: rest } : Part).takeRow
      q.tracker.rowIndex = 1 ∧ (∀ g : SegPlan, q.ownerSet g = []) ∧ q.drawNumber.1 = 1

/-- R65 whole: what power-on reset leaves in the hole tracker, and what a birth sets of its fields. -/
def Obligations.PowerOnHoles : Prop :=
  (∀ (straps : BitVec 3) (s : State), ∃ t, exec (.powerOnReset straps) s = .next t ∧
    (∀ h ∈ t.part.holes.table, h = none) ∧ t.part.holes.table.length = 32 ∧
    t.part.holes.prevRuns = [] ∧ t.part.holes.curRuns = [] ∧
    t.part.recorder.outgoing = [] ∧ t.part.recorder.inProgress = none ∧
    t.part.setup.guarded.fillLimit = 40) ∧
  (∀ (number lot : Half) (row : Word) (g : SegPlan),
    let h := Hide.newborn number lot row g
    h.filled = 0 ∧ h.holesFilled = 0 ∧ h.holesLarge = 0 ∧ h.holesBreached = 0 ∧ h.flags = HideFlags.empty) ∧
  (∀ (p : Part) (g : Guarded), (p.applyGuarded g).setup.guarded.fillLimit = g.fillLimit)

/-! ### Row intake (chapter 1) -/

/-- Beats outside a slot's content, with no lane enabled, or outside the ring change nothing in row intake; nor does a header
without all lanes or with another marker (R1, R2, R3, R5). The model's choice (log entry 6): nothing else changes either, the
carrying to the RAM being UPSTREAM_TRANSACTION's, and BEAM_WORD_WRITE at offset 0 changes nothing, a header beat by R2. -/
def Obligations.IgnoredBeatsChangeNothing : Prop :=
  ∀ (slot offset : BitVec 6) (en : Lanes) (data : Word) (s : State),
    (s.part.setup.guarded.slotCount ≤ slot.toNat ∨ offset = 0 ∨
        3 * (s.part.setup.guarded.beams / 32) < offset.toNat ∨ en = 0 →
      exec (.beamWordWrite slot offset en data) s = .next s) ∧
    (s.part.setup.guarded.slotCount ≤ slot.toNat ∨ en ≠ 0xF ∨ data.extractLsb' 16 8 ≠ 0xC6 →
      exec (.headerWrite slot en data) s = .next s)

/-- A captured beam word (R3, R4): its enabled lanes join the slot's buffer, byte by byte with their written flags; without one a
fresh buffer is allocated, every flag clear; with both buffers HELD for other slots the older is abandoned first, with its event.
A buffer is complete when every flag of every word is set. -/
def Obligations.BeamWordIsCaptured : Prop :=
  (∀ (slot offset : BitVec 6) (en : Lanes) (data : Word) (s : State),
    slot.toNat < s.part.setup.guarded.slotCount → 1 ≤ offset.toNat →
    offset.toNat ≤ 3 * (s.part.setup.guarded.beams / 32) → en ≠ 0 →
    let fresh := (Buffer.fresh slot s.part.setup.guarded.beams).merge (offset.toNat - 1) en data
    ((∃ b ∈ s.part.intake.buffers, b.slot = slot) →
      exec (.beamWordWrite slot offset en data) s = .next { s with
        part.intake.buffers := s.part.intake.buffers.map
          (fun b => if b.slot = slot then b.merge (offset.toNat - 1) en data else b) }) ∧
    ((∀ b ∈ s.part.intake.buffers, b.slot ≠ slot) → s.part.intake.buffers.length < 2 →
      exec (.beamWordWrite slot offset en data) s = .next { s with
        part.intake.buffers := s.part.intake.buffers ++ [fresh] }) ∧
    (∀ a b, s.part.intake.buffers = [a, b] → a.slot ≠ slot → b.slot ≠ slot →
      exec (.beamWordWrite slot offset en data) s = .next { s with
        part := { (s.part.raise .rowIncomplete (a.slot.setWidth 32)).countDropped 1 with
          intake.buffers := [b, fresh] } } ∧
      (s.part.recorder.outgoing.length < 8 →
        ((s.part.raise .rowIncomplete (a.slot.setWidth 32)).countDropped 1).recorder.outgoing = s.part.recorder.outgoing ++
          [.event .rowIncomplete s.part.tracker.rowIndex (a.slot.setWidth 32)]) ∧
      ((s.part.raise .rowIncomplete (a.slot.setWidth 32)).countDropped 1).intake.dropped = s.part.intake.dropped + 1)) ∧
  (∀ (slot : BitVec 6) (beams : Nat), (Buffer.fresh slot beams).slot = slot ∧
    (Buffer.fresh slot beams).words.length = 3 * (beams / 32) ∧ ∀ w ∈ (Buffer.fresh slot beams).words, w.written = 0) ∧
  (∀ (b : Buffer) (i : Nat) (en : Lanes) (data : Word),
    (b.merge i en data).slot = b.slot ∧ (b.merge i en data).words.length = b.words.length ∧
    ∀ (j : Nat) (w : BufWord), b.words[j]? = some w → ∃ v, (b.merge i en data).words[j]? = some v ∧ (j ≠ i → v = w) ∧
      (j = i → ∀ l, l < 4 →
        laneByte v.data l = (if en.getLsbD l then laneByte data l else laneByte w.data l) ∧
        v.written.getLsbD l = (w.written.getLsbD l || en.getLsbD l))) ∧
  (∀ b : Buffer, b.complete = true ↔ ∀ w ∈ b.words, ∀ l, l < 4 → w.written.getLsbD l = true) ∧
  (∀ (old new : Word) (en : Lanes) (l : Nat), l < 4 →
    laneByte (mergeLanes old new en) l = if en.getLsbD l then laneByte new l else laneByte old l)

/-- A taken header whose slot has no buffer or an incomplete one (R5): one row dropped, ROW_INCOMPLETE, the buffer freed, the
expectation kept, a SYNC flag remembered. -/
def Obligations.HeaderOfAnIncompleteSlot : Prop :=
  ∀ (slot : BitVec 6) (data : Word) (s : State),
    slot.toNat < s.part.setup.guarded.slotCount → data.extractLsb' 16 8 = (0xC6 : Byte) →
    (∀ b, s.part.bufferFor slot = some b → b.complete = false) →
    ∃ t, exec (.headerWrite slot 0xF data) s = .next t ∧ t.path = s.path ∧
      t.part.intake.dropped = s.part.intake.dropped + 1 ∧
      t.part.intake.buffers = s.part.intake.buffers.filter (fun b => decide (b.slot ≠ slot)) ∧
      t.part.intake.syncPending = (s.part.intake.syncPending || data.getLsbD 24) ∧
      t.part.intake.expected = s.part.intake.expected ∧ t.part.intake.queue = s.part.intake.queue ∧
      t.part.intake.accepted = s.part.intake.accepted ∧ t.part.tracker = s.part.tracker ∧
      t.part.belt = s.part.belt ∧ t.part.head = s.part.head ∧ t.part.setup = s.part.setup ∧
      (s.part.recorder.outgoing.length < 8 → t.part.recorder.outgoing =
        s.part.recorder.outgoing ++ [.event .rowIncomplete s.part.tracker.rowIndex (slot.setWidth 32)])

/-- A sync row (R6, R10, R17): accepted whatever its number, with the truncate mark and BELT_GAP(0) when hides may still be open or
opened, after the events of its conditioning (log entry 20); dropped for overrun with ROW_OVERRUN when the queue is full. -/
def Obligations.SyncRow : Prop :=
  ∀ (slot : BitVec 6) (data : Word) (b : Buffer) (s : State),
    slot.toNat < s.part.setup.guarded.slotCount → data.extractLsb' 16 8 = (0xC6 : Byte) →
    s.part.bufferFor slot = some b → b.complete = true →
    (data.getLsbD 24 = true ∨ s.part.intake.syncPending = true) →
    let row := (s.part.condition (subRowsOf b.words s.part.setup.guarded.beams)).1
    let events := (s.part.condition (subRowsOf b.words s.part.setup.guarded.beams)).2.recorder.outgoing
    let busy := s.part.tracker.pass.isSome || !s.part.openHides.isEmpty || !s.part.intake.queue.isEmpty
    ∃ t, exec (.headerWrite slot 0xF data) s = .next t ∧ t.path = s.path ∧
      (s.part.intake.queue.length < 4 →
        t.part.intake.queue = s.part.intake.queue ++ [{ row with trunc := busy }] ∧
        t.part.intake.expected = data.extractLsb' 0 16 + 1 ∧ t.part.intake.syncPending = false ∧
        t.part.intake.lastRow = row.covered ∧
        t.part.intake.accepted = s.part.intake.accepted + 1 ∧ t.part.intake.dropped = s.part.intake.dropped ∧
        t.part.belt.present = .running ∧ t.part.belt.halt = some 0 ∧
        (events.length < 8 → t.part.recorder.outgoing =
          events ++ (if busy then [.event .beltGap s.part.tracker.rowIndex 0] else []))) ∧
      (4 ≤ s.part.intake.queue.length →
        t.part.intake.queue = s.part.intake.queue ∧ t.part.intake.expected = s.part.intake.expected ∧
        t.part.intake.syncPending = true ∧ t.part.intake.lastRow = s.part.intake.lastRow ∧
        t.part.intake.accepted = s.part.intake.accepted ∧
        t.part.intake.dropped = s.part.intake.dropped + 1 ∧ t.part.belt = s.part.belt ∧
        (s.part.recorder.outgoing.length < 8 → t.part.recorder.outgoing = s.part.recorder.outgoing ++
          [.event .rowOverrun s.part.tracker.rowIndex ((data.extractLsb' 0 16 : Half).setWidth 32)]))

/-- The sequence check of a completed row that is no sync row (R7 to R10, R17): in sequence, bridged, belt gap with BELT_GAP(d) after
the events of its conditioning (log entry 20), overrun with ROW_OVERRUN, old. -/
def Obligations.SequenceCheck : Prop :=
  ∀ (slot : BitVec 6) (data : Word) (b : Buffer) (s : State),
    slot.toNat < s.part.setup.guarded.slotCount → data.extractLsb' 16 8 = (0xC6 : Byte) →
    s.part.bufferFor slot = some b → b.complete = true →
    data.getLsbD 24 = false → s.part.intake.syncPending = false →
    let row := (s.part.condition (subRowsOf b.words s.part.setup.guarded.beams)).1
    let events := (s.part.condition (subRowsOf b.words s.part.setup.guarded.beams)).2.recorder.outgoing
    let copy : CondRow := { covered := s.part.intake.lastRow, noisy := 0, gap := true, trunc := false }
    let seq : Half := data.extractLsb' 0 16
    let d := (seq - s.part.intake.expected).toNat
    let bridge := s.part.setup.unguarded.gapBridge
    ∃ t, exec (.headerWrite slot 0xF data) s = .next t ∧ t.path = s.path ∧ t.part.intake.syncPending = false ∧
      (d < 32768 → s.part.intake.queue.length < 4 →
        t.part.intake.expected = seq + 1 ∧ t.part.intake.accepted = s.part.intake.accepted + 1 ∧
        t.part.intake.lastRow = row.covered ∧
        t.part.intake.dropped = s.part.intake.dropped ∧ t.part.belt.present = .running ∧ t.part.belt.halt = some 0) ∧
      (d = 0 → s.part.intake.queue.length < 4 →
        t.part.intake.queue = s.part.intake.queue ++ [row] ∧
        t.part.intake.synthesized = s.part.intake.synthesized ∧ t.part.recorder.outgoing = events) ∧
      (1 ≤ d → d < 32768 → d ≤ bridge → s.part.intake.queue.length + d + 1 ≤ 4 →
        t.part.intake.queue = s.part.intake.queue ++ List.replicate d copy ++ [row] ∧
        t.part.intake.synthesized = s.part.intake.synthesized + BitVec.ofNat 32 d ∧ t.part.recorder.outgoing = events) ∧
      (1 ≤ d → d < 32768 → (bridge < d ∨ 4 < s.part.intake.queue.length + d + 1) → s.part.intake.queue.length < 4 →
        t.part.intake.queue = s.part.intake.queue ++ [{ row with trunc := true }] ∧
        t.part.intake.synthesized = s.part.intake.synthesized ∧
        (events.length < 8 → t.part.recorder.outgoing =
          events ++ [.event .beltGap s.part.tracker.rowIndex (BitVec.ofNat 32 d)])) ∧
      (d < 32768 → 4 ≤ s.part.intake.queue.length →
        t.part.intake.queue = s.part.intake.queue ∧ t.part.intake.expected = s.part.intake.expected ∧
        t.part.intake.accepted = s.part.intake.accepted ∧ t.part.intake.lastRow = s.part.intake.lastRow ∧
        t.part.intake.dropped = s.part.intake.dropped + 1 ∧ t.part.belt = s.part.belt ∧
        (s.part.recorder.outgoing.length < 8 → t.part.recorder.outgoing = s.part.recorder.outgoing ++
          [.event .rowOverrun s.part.tracker.rowIndex (seq.setWidth 32)])) ∧
      (32768 ≤ d →
        t.part = ({ s.part with
          intake.buffers := s.part.intake.buffers.filter (fun x => decide (x.slot ≠ slot))
          intake.duplicates := s.part.intake.duplicates + 1 } : Part).mark wDuplicates)

/-- The sub-rows of a slot as 11.1 lays them out; the beams that are not masked (R12), the stuck-run counters (R14), the BEAM_STUCK
events and the MASKED_BEAMS notice (R15) of a conditioned row. The events' ascending order is the model's choice (log entry 36). -/
def Obligations.ConditionedBeams : Prop :=
  (∀ (words : List BufWord) (beams x : Nat), beams ≤ 384 →
    let word := fun i : Nat => (words.getD i { data := 0, written := 0 }).data
    let w := beams / 32
    let r := subRowsOf words beams
    (x < 32 * w →
      r.a.getLsbD x = (word (x / 32)).getLsbD (x % 32) ∧ r.b.getLsbD x = (word (w + x / 32)).getLsbD (x % 32) ∧
      r.c.getLsbD x = (word (2 * w + x / 32)).getLsbD (x % 32)) ∧
    (32 * w ≤ x → r.a.getLsbD x = false ∧ r.b.getLsbD x = false ∧ r.c.getLsbD x = false)) ∧
  ∀ (p : Part) (r : SubRows), p.setup.guarded.beams ≤ 384 → p.intake.stuck.length = 384 →
    let row := (p.condition r).1
    let q := (p.condition r).2
    let masked := fun b => p.setup.guarded.mask.getLsbD b || p.intake.autoMask.getLsbD b
    let major := fun b => (r.a.getLsbD b && r.b.getLsbD b) || (r.a.getLsbD b && r.c.getLsbD b) ||
      (r.b.getLsbD b && r.c.getLsbD b)
    let joined := (List.range p.setup.guarded.beams).filter (fun b => !p.setup.guarded.mask.getLsbD b &&
      !p.intake.autoMask.getLsbD b && major b && decide (p.setup.guarded.stuckLimit ≤ q.intake.stuck.getD b 0))
    let flagged := fun h : Hide => { h with flags.maskedBeams := true }
    row.gap = false ∧ row.trunc = false ∧ q.intake.lastRow = row.covered ∧
    (p.recorder.outgoing.length + joined.length ≤ 8 → q.recorder.outgoing = p.recorder.outgoing ++
      joined.map (fun b => .event .beamStuck p.tracker.rowIndex (BitVec.ofNat 32 b))) ∧
    (joined = [] → q.tracker = p.tracker ∧ q.recorder = p.recorder) ∧
    (joined ≠ [] → p.tracker.pass = none →
      q.tracker.table = p.tracker.table.map (Option.map flagged) ∧ q.tracker.spill = p.tracker.spill.map flagged) ∧
    (joined ≠ [] → p.tracker.pass.isSome = true → q.tracker = { p.tracker with noticeWaiting := true }) ∧
    ∀ b, b < 384 →
      (p.setup.guarded.beams ≤ b → row.covered.getLsbD b = false ∧ row.noisy.getLsbD b = false ∧
        q.intake.stuck.getD b 0 = p.intake.stuck.getD b 0 ∧
        q.intake.autoMask.getLsbD b = p.intake.autoMask.getLsbD b) ∧
      (b < p.setup.guarded.beams →
        (masked b = false → row.covered.getLsbD b = major b ∧
          row.noisy.getLsbD b = !(r.a.getLsbD b == r.b.getLsbD b && r.b.getLsbD b == r.c.getLsbD b)) ∧
        (masked b = true → row.noisy.getLsbD b = false) ∧
        q.intake.stuck.getD b 0 = (if p.setup.guarded.mask.getLsbD b then 0
          else if major b then min 16383 (p.intake.stuck.getD b 0 + 1) else 0) ∧
        q.intake.autoMask.getLsbD b = (p.intake.autoMask.getLsbD b ||
          (!p.setup.guarded.mask.getLsbD b && major b &&
            decide (p.setup.guarded.stuckLimit ≤ q.intake.stuck.getD b 0))))

/-- R13 whole: the value a masked beam takes. -/
def Obligations.MaskedBeamValues : Prop :=
  ∀ (p : Part) (r : SubRows), p.setup.guarded.beams ≤ 384 →
    let n := p.setup.guarded.beams
    let row := (p.condition r).1
    let masked := fun b => p.setup.guarded.mask.getLsbD b || p.intake.autoMask.getLsbD b
    let major := fun b => (r.a.getLsbD b && r.b.getLsbD b) || (r.a.getLsbD b && r.c.getLsbD b) ||
      (r.b.getLsbD b && r.c.getLsbD b)
    let below := fun lo b => lo < b ∧ masked lo = false ∧ ∀ c, lo < c → c < b → masked c = true
    let above := fun hi b => b < hi ∧ hi < n ∧ masked hi = false ∧ ∀ c, b < c → c < hi → masked c = true
    (∀ b, b < n → masked b = true →
      (∀ lo hi, below lo b → above hi b → row.covered.getLsbD b = (major lo && major hi)) ∧
      (∀ lo, below lo b → (∀ c, b < c → c < n → masked c = true) → row.covered.getLsbD b = major lo) ∧
      (∀ hi, (∀ c, c < b → masked c = true) → above hi b → row.covered.getLsbD b = major hi) ∧
      ((∀ c, c < n → masked c = true) → row.covered.getLsbD b = false)) ∧
    (∀ b, b + 1 < n → masked b = true → masked (b + 1) = true →
      row.covered.getLsbD b = row.covered.getLsbD (b + 1)) ∧
    (∀ m : Beams, (∀ b, b < n → m.getLsbD b = p.setup.guarded.mask.getLsbD b) →
      (({ p with setup.guarded.mask := m } : Part).condition r).1 = row)

/-! ### The hide tracker (chapter 2) -/

/-- ROW_PASS (R15, R21, R22, R26): a whole pass ends with no pass in progress and an empty current list, having taken one row if
none was under pass, and a waiting MASKED_BEAMS notice taken; with nothing to take there is no effect; taking a row counts it. Each
stage hands on to the next with its whole effect, in the order of 2.1; stage 8 makes the current lists the previous ones (R26, R53).
That a pass may be left off after the take (rowPass (some 0)) or after a unit of work is the model's cut of the pass (log entry 1). -/
def Obligations.RowPassTakesOneRow : Prop :=
  ∀ s : State,
    (s.part.tracker.pass = none → s.part.intake.queue = [] → ∀ u, exec (.rowPass u) s = .next s) ∧
    (∀ r rest, s.part.tracker.pass = none → s.part.intake.queue = r :: rest →
      (∃ t, exec (.rowPass none) s = .next t ∧ t.path = s.path ∧ t.part.belt = s.part.belt ∧
        t.part.tracker.rowIndex = s.part.tracker.rowIndex + 1 ∧ t.part.intake.queue = rest ∧
        t.part.tracker.pass = none ∧ t.part.tracker.cur = [] ∧ t.part.holes.curRuns = [] ∧
        t.part.tracker.restartsWaiting = 0 ∧ wRow ∈ t.part.dirty) ∧
      (∃ t, exec (.rowPass (some 0)) s = .next t ∧ t.path = s.path ∧
        t.part.tracker.rowIndex = s.part.tracker.rowIndex + 1 ∧ t.part.intake.queue = rest ∧
        (∃ k, t.part.tracker.pass = some { row := r, stage := k } ∧ (r.trunc = false → k = .segmentation)))) ∧
    (s.part.tracker.pass.isSome = true →
      ∃ t, exec (.rowPass none) s = .next t ∧ t.path = s.path ∧ t.part.belt = s.part.belt ∧
        t.part.tracker.rowIndex = s.part.tracker.rowIndex ∧ t.part.intake.queue = s.part.intake.queue ∧
        t.part.tracker.pass = none ∧ t.part.tracker.cur = [] ∧
        (s.part.tracker.noticeWaiting = true →
          t.part.tracker.noticeWaiting = false ∧ ∀ h ∈ t.part.openHides, h.flags.maskedBeams = true)) ∧
    ∀ r : CondRow,
      let p := s.part
      let here := fun st : PassStage => p.tracker.pass = some { row := r, stage := st }
      let handsOn := fun (q : Part) (st : PassStage) => exec (.rowPass (some 1)) s = .next { s with
        part := { q with tracker.pass := some { row := r, stage := st } } }
      (here .segmentation → handsOn p (.ownership (segmentsOf p.setup.guarded.beams r.covered))) ∧
      (∀ g gs, here (.ownership (g :: gs)) → handsOn (p.ownSegment g) (.ownership gs)) ∧
      (here (.ownership []) → handsOn p .accumulation) ∧
      (here .accumulation → handsOn (p.accumulate r) (.gaps (candidateGaps (p.accumulate r).tracker.cur))) ∧
      (∀ g gs, here (.gaps (g :: gs)) → handsOn (p.classifyGap g) (.gaps gs)) ∧
      (here (.gaps []) → handsOn p .closingCheck) ∧
      (here .closingCheck → handsOn p.checkHoles (.closing p.checkHoles.toClose)) ∧
      p.checkHoles = (List.range 32).foldl Part.checkHole p ∧
      (here (.closing []) → handsOn p .sites) ∧
      (here .sites → handsOn (p.siteStage r) .exchange) ∧
      (here .exchange → ∃ t, exec (.rowPass (some 1)) s = .next t ∧ t.path = s.path ∧
        t.part.tracker.pass = none ∧ t.part.tracker.cur = [] ∧ t.part.holes.curRuns = [] ∧
        t.part.tracker.restartsWaiting = 0 ∧
        (p.tracker.restartsWaiting = 0 →
          t.part.tracker.prev = p.tracker.cur ∧ t.part.holes.prevRuns = p.holes.curRuns ∧
          t.part.holes.table = p.holes.table ∧ t.part.sched = p.sched ∧ t.part.head = p.head ∧
          t.part.openHides.map Hide.number = p.openHides.map Hide.number) ∧
        (p.tracker.restartsWaiting ≠ 0 →
          t.part.openHides = [] ∧ t.part.tracker.prev = [] ∧ t.part.holes.prevRuns = []))

/-- Segmentation (R24, R25): one segment per maximal run of covered beams, left to right; beyond 128 runs, run 128 and all later
ones are one united segment, whose owner gets FRAGMENT. Ownership (R29): a segment's owner set, and the case it decides.
Accumulation (R38 to R41): what the row's segments add to their owners, and nothing else. -/
def Obligations.SegmentsAreTheCoveredRuns : Prop :=
  (∀ (p : Part) (g : SegPlan),
    (p.ownerSet g).Nodup ∧
    (∀ o, o ∈ p.ownerSet g ↔ ∃ s ∈ p.tracker.prev, s.owner = o ∧ s.start ≤ g.stop ∧ g.start ≤ s.stop) ∧
    let x := if p.ownerSet g = [] then p.birth g else p.mergeOwners (p.ownerSet g)
    let q : Part := { x.2 with tracker.cur := x.2.tracker.cur ++ [{ start := g.start, stop := g.stop, owner := x.1 }] }
    (g.united = false → p.ownSegment g = q) ∧
    (g.united = true → ∀ h, q.hideOf x.1 = some h →
      (h.flags.fragment = true → p.ownSegment g = q) ∧
      (h.flags.fragment = false → (p.ownSegment g).hideOf x.1 = some { h with flags.fragment := true } ∧
        (q.recorder.outgoing.length < 8 → (p.ownSegment g).recorder.outgoing =
          q.recorder.outgoing ++ [.event .fragmentRow q.tracker.rowIndex (h.number.setWidth 32)])))) ∧
  (∀ (p : Part) (r : CondRow),
    (∃ t sp, p.accumulate r = { p with tracker.table := t, tracker.spill := sp }) ∧
    ∀ o, (p.hideOf o = none → (p.accumulate r).hideOf o = none) ∧
      ∀ h, p.hideOf o = some h →
        let mine := p.tracker.cur.filter (fun s => decide (s.owner = o))
        let noisy := fun s : Seg => ((List.range 384).filter
          (fun c => decide (s.start ≤ c) && decide (c ≤ s.stop) && r.noisy.getLsbD c)).length
        let noise := min 65535 (h.noise + (mine.map noisy).sum)
        (mine = [] → (p.accumulate r).hideOf o = some h) ∧
        (mine ≠ [] → (p.accumulate r).hideOf o = some { h with
          covered := min 4294967295 (h.covered + (mine.map (fun s => s.stop + 1 - s.start)).sum)
          lastRow := p.tracker.rowIndex
          minCol := (mine.map Seg.start).foldl min h.minCol
          maxCol := (mine.map Seg.stop).foldl max h.maxCol
          noise := noise
          flags.edge := h.flags.edge ||
            mine.any (fun s => decide (s.start = 0) || decide (s.stop + 1 = p.setup.guarded.beams))
          flags.gapRows := h.flags.gapRows || r.gap
          flags.noisy := h.flags.noisy ||
            (decide (p.setup.unguarded.noiseLimit ≠ 0) && decide (p.setup.unguarded.noiseLimit < noise)) })) ∧
  ∀ (beams : Nat) (row : Beams),
    let runs := runsFrom row beams 0 none
    let segs := segmentsOf beams row
    (∀ g ∈ runs, g.start ≤ g.stop ∧ g.stop < beams ∧ g.united = false ∧
      ∀ c, g.start ≤ c → c ≤ g.stop → row.getLsbD c = true) ∧
    (∀ c, c < beams → row.getLsbD c = true → ∃ g ∈ runs, g.start ≤ c ∧ c ≤ g.stop) ∧
    runs.Pairwise (fun a b => a.stop + 1 < b.start) ∧
    (runs.length ≤ 128 → segs = runs) ∧
    (128 < runs.length → segs.length = 128 ∧ segs.take 127 = runs.take 127 ∧
      ∃ a z, runs[127]? = some a ∧ runs.getLast? = some z ∧
        segs[127]? = some { start := a.start, stop := z.stop, united := true })

/-- A drawn hide number (R28, R115): never 0, carried by no open hide and no job, and the counter goes on after it. -/
def Obligations.HideNumberIsFree : Prop :=
  ∀ p : Part, p.tracker.counter ≠ 0 → p.carriedNumbers.length < 65535 →
    let n := p.drawNumber.1
    n ≠ 0 ∧ (∀ h ∈ p.openHides, h.number ≠ n) ∧ (∀ j ∈ p.jobs, j.info.number ≠ n) ∧
      p.drawNumber.2.tracker.counter = (if n = 65535 then 1 else n + 1) ∧
      (p.tracker.counter ∉ p.carriedNumbers → n = p.tracker.counter)

/-- A birth (R30, R31): the lowest FREE entry, else the spill account, opened with HIDE_TABLE_FULL if idle. The lot it is given
(R86): the CLOSING lot's only before the boundary row; the births count, the pack counter, and the pack transition or its waiting
(R88). -/
def Obligations.BirthTakesTheLowestFree : Prop :=
  (∀ p : Part,
    let old := p.lots.openLot
    let counted := { old with tally.births := min 65535 (old.tally.births + 1) }
    let n := p.lots.packCounter + 1
    let due := p.setup.unguarded.packSize ≠ 0 ∧ p.setup.unguarded.packSize ≤ n
    let early := p.tracker.rowIndex ≠ old.startRow ∧ (old.startRow - p.tracker.rowIndex).toNat < 2147483648
    (∀ l, p.lots.closing = some l → early →
      p.birthLot = (l.id, { p with lots.closing := some { l with tally.births := min 65535 (l.tally.births + 1) } })) ∧
    ((p.lots.closing = none ∨ ¬ early) → ¬ due →
      p.birthLot = (old.id, { p with lots.openLot := counted, lots.packCounter := n })) ∧
    (p.lots.closing.isSome = true → ¬ early → due →
      p.birthLot = (old.id, { p with lots.openLot := counted, lots.packCounter := n, lots.packPending := true })) ∧
    (p.lots.closing = none → due → ∃ q, p.birthLot = (old.id, q) ∧
      q = { p with
        lots.openLot := Lot.fresh (old.id + 1) (p.tracker.rowIndex + 1)
        lots.closing := some { counted with packAuto := true }
        lots.packCounter := 0
        setup.unguarded.windows := p.setup.unguarded.windows.map
          (fun w => if w.enable = .lot then { w with enable := .off } else w)
        dirty := q.dirty } ∧ wOpenLot ∈ q.dirty ∧ wClosingLot ∈ q.dirty)) ∧
  ∀ (p : Part) (g : SegPlan),
    (p.tracker.spill = none ∨ (∃ i : Nat, p.tracker.table[i]? = some none) → p.recorder.outgoing.length < 8 →
      (p.birth g).2.lots = p.birthLot.2.lots ∧ p.drawNumber.2.birthLot.1 = p.birthLot.1) ∧
    (∀ i, i < p.tracker.table.length → p.tracker.table[i]? = some none →
      (∀ j : Nat, j < i → p.tracker.table[j]? ≠ some none) →
      (p.birth g).1 = .entry i ∧
      (p.birth g).2.tracker.table =
        p.tracker.table.set i (some (Hide.newborn p.drawNumber.1 p.drawNumber.2.birthLot.1 p.tracker.rowIndex g)) ∧
      (p.birth g).2.tracker.spill = p.tracker.spill ∧ (p.birth g).2.recorder = p.recorder) ∧
    ((∀ j : Nat, p.tracker.table[j]? ≠ some none) → p.tracker.spill = none →
      (p.birth g).1 = .spill ∧
      (p.birth g).2.tracker.spill =
        some (Hide.newborn p.drawNumber.1 p.drawNumber.2.birthLot.1 p.tracker.rowIndex g) ∧
      (p.birth g).2.tracker.table = p.tracker.table ∧
      (p.recorder.outgoing.length < 8 → (p.birth g).2.recorder.outgoing =
        p.recorder.outgoing ++ [.event .hideTableFull p.tracker.rowIndex (p.drawNumber.1.setWidth 32)])) ∧
    ((∀ j : Nat, p.tracker.table[j]? ≠ some none) → p.tracker.spill.isSome = true → p.birth g = (.spill, p))

/-- A merge (R33 to R37, R62). An absorption, of an entry or at a spill join of the spill account: field by field, with DOUBLE if both
parties are at the threshold and SPILL_JOINED at a join; the absorbed place is FREE or idle, its segments and, of an entry, its holes
are the survivor's. An owner set: the survivor is the entry of the earliest first row, on equal ones that of the leftmost segment;
the other entries are absorbed in ascending order of their leftmost segments, the spill account last. -/
def Obligations.MergeOfTwoEntries : Prop :=
  (∀ (p : Part) (b : Nat) (o : Owner) (x y : Hide),
    o ≠ .entry b → p.hideOf (.entry b) = some x → p.hideOf o = some y →
    let q := p.absorbOwner b o
    let repointed := fun l : List Seg => l.map (fun s => if s.owner = o then { s with owner := .entry b } else s)
    q.hideOf o = none ∧ (∀ c, c ≠ o → c ≠ .entry b → q.hideOf c = p.hideOf c) ∧
    (∃ z, q.hideOf (.entry b) = some z ∧
      z.number = x.number ∧ z.lot = x.lot ∧
      z.firstRow = (if (y.firstRow - x.firstRow).toNat < 2147483648 then x.firstRow else y.firstRow) ∧
      z.lastRow = x.lastRow ∧
      z.covered = min 4294967295 (x.covered + y.covered) ∧ z.filled = min 4294967295 (x.filled + y.filled) ∧
      z.noise = min 65535 (x.noise + y.noise) ∧ z.minCol = min x.minCol y.minCol ∧ z.maxCol = max x.maxCol y.maxCol ∧
      z.merges = min 65535 (x.merges + y.merges + 1) ∧
      z.holesFilled = min 65535 (x.holesFilled + y.holesFilled) ∧
      z.holesLarge = min 65535 (x.holesLarge + y.holesLarge) ∧
      z.holesBreached = min 65535 (x.holesBreached + y.holesBreached) ∧
      z.flags.double = (x.flags.double || y.flags.double ||
        (decide (p.setup.guarded.doubleThreshold ≤ x.covered) && decide (p.setup.guarded.doubleThreshold ≤ y.covered))) ∧
      z.flags.spillJoined = (x.flags.spillJoined || y.flags.spillJoined || decide (o = .spill)) ∧
      z.flags.fragment = (x.flags.fragment || y.flags.fragment) ∧ z.flags.noisy = (x.flags.noisy || y.flags.noisy) ∧
      z.flags.holeLimit = (x.flags.holeLimit || y.flags.holeLimit) ∧ z.flags.gapRows = (x.flags.gapRows || y.flags.gapRows) ∧
      z.flags.edge = (x.flags.edge || y.flags.edge) ∧ z.flags.maskedBeams = (x.flags.maskedBeams || y.flags.maskedBeams) ∧
      z.flags.truncated = (x.flags.truncated || y.flags.truncated) ∧
      (x.site = none → z.site = y.site) ∧ (y.site = none → z.site = x.site) ∧
      (∀ u v, x.site = some u → y.site = some v → z.site =
        if u.row ≠ v.row ∧ (v.row - u.row).toNat < 2147483648 then some v else some u)) ∧
    q.tracker.prev = repointed p.tracker.prev ∧ q.tracker.cur = repointed p.tracker.cur ∧
    (∀ a, o = .entry a → q.holes = { p.holes with
      table := p.holes.table.map (Option.map (fun h => if h.owner = a then { h with owner := b } else h)) }) ∧
    (o = .spill → q.holes = p.holes) ∧
    q.recorder = p.recorder ∧ q.lots = p.lots ∧ q.sched = p.sched ∧ q.tracker.closed = p.tracker.closed ∧
    q.tracker.counter = p.tracker.counter) ∧
  (∀ (p : Part) (b : Nat) (x : Hide) (os : List Owner), os.Nodup → .entry b ∈ os → p.hideOf (.entry b) = some x →
    let left := fun o : Owner => ((p.tracker.prev.filter (fun s => decide (s.owner = o))).map Seg.start).head?.getD 384
    (∀ o ∈ os, o ≠ .spill → o ≠ .entry b → ∃ y, p.hideOf o = some y ∧
      ((x.firstRow ≠ y.firstRow ∧ (y.firstRow - x.firstRow).toNat < 2147483648) ∨
        (x.firstRow = y.firstRow ∧ left (.entry b) < left o))) →
    (p.mergeOwners os).1 = .entry b ∧
    ∃ others : List Owner, others.Perm (os.filter (fun o => decide (o ≠ .spill) && decide (o ≠ .entry b))) ∧
      others.Pairwise (fun c d => left c ≤ left d) ∧
      (p.mergeOwners os).2 =
        (others ++ (if Owner.spill ∈ os then [Owner.spill] else [])).foldl (fun p o => p.absorbOwner b o) p)

/-- RESTART (R19, R46, R64, R129, R162, R182) with no pass in progress: row queue empty and counted dropped, every job but a STRIKING
current one MISSED(RESTART) with its record, current first, then every hide closed, counted and UNSTAMPED(TRUNCATED), lists and
heights empty. In a pass the tracker's part waits. -/
def Obligations.RestartClosesEverything : Prop :=
  ∀ (tag : Half) (s : State),
    let gone := s.part.sched.current.toList.filter (fun j => decide (j.state ≠ .striking)) ++ s.part.sched.waiting
    ∃ t, exec (.restart tag) s = .next t ∧ t.path = s.path ∧
      t.part.intake.queue = [] ∧ t.part.intake.syncPending = true ∧
      t.part.intake.dropped = s.part.intake.dropped + BitVec.ofNat 32 s.part.intake.queue.length ∧
      t.part.intake.accepted = s.part.intake.accepted ∧ t.part.belt = s.part.belt ∧
      t.part.tracker.rowIndex = s.part.tracker.rowIndex ∧ t.part.tracker.counter = s.part.tracker.counter ∧
      t.part.setup.result = { tag := tag, code := 7, result := .done, offset := 0 } ∧
      (s.part.tracker.pass = none →
        t.part.openHides = [] ∧ t.part.tracker.prev = [] ∧ t.part.tracker.cur = [] ∧
        t.part.holes.prevRuns = [] ∧ t.part.holes.curRuns = [] ∧
        (∀ h ∈ t.part.sched.heights, h = 0) ∧ t.part.sched.waiting = [] ∧
        (∀ j, t.part.sched.current = some j → j.state = .striking ∧ s.part.sched.current = some j) ∧
        (∀ j, s.part.sched.current = some j → j.state = .striking → t.part.sched.current = some j) ∧
        t.part.tracker.closed = s.part.tracker.closed + BitVec.ofNat 32 s.part.openHides.length ∧
        (s.part.lots.closing = none → s.part.recorder.outgoing.length + gone.length ≤ 8 →
          (s.part.recorder.outgoing ++ gone.map (fun j => .hide j.info (.missed .restart) (some j.strikeRow))) <+:
            t.part.recorder.outgoing) ∧
        (s.part.lots.closing = none → s.part.setup.snapshot = none → s.part.lots.markQueue = [] →
          s.part.recorder.outgoing.length + gone.length + s.part.openHides.length ≤ 8 →
          ∀ h ∈ s.part.openHides, ∃ info, .hide info (.unstamped .truncated) none ∈ t.part.recorder.outgoing ∧
            info.number = h.number ∧ info.lot = h.lot ∧ info.flags.truncated = true ∧ info.grade = .review)) ∧
      (s.part.tracker.pass.isSome = true →
        t.part.tracker = { s.part.tracker with restartsWaiting := s.part.tracker.restartsWaiting + 1 } ∧
        t.part.sched = s.part.sched ∧ t.part.holes = s.part.holes ∧ t.part.head = s.part.head)

/-- The close of a hide (R42 to R46, R63, R104, R105): its holes breached, its fields handed over, its record or its job, its place
free, the recent-hides list, the counter; which hides the close stage closes and in what order; the truncate stage. A pass left off
after a unit of work is the model's cut (log entry 1), the place freed before the marks are looked at its order (log entry 22). -/
def Obligations.HidesClose : Prop :=
  (∀ (p : Part) (cause : CloseCause) (o : Owner) (h : Hide), p.hideOf o = some h → p.holes.table.length = 32 →
    let own := fun x : Option Hole => x.any (fun y => decide (o = .entry y.owner))
    let n := (p.holes.table.filter own).length
    let z : Hide := { h with
      holesBreached := if n = 0 then h.holesBreached else min 65535 (h.holesBreached + n)
      flags.truncated := h.flags.truncated || decide (cause ≠ .row) }
    let info := p.infoOf (if o = .spill then .spill else .belt) z
    let freed := fun l : List Run => l.filter (fun r => !own (p.holes.table.getD r.hole none))
    let q := p.closeHide cause o
    q.hideOf o = none ∧ (∀ c, c ≠ o → q.hideOf c = p.hideOf c) ∧
    q.tracker.closed = p.tracker.closed + 1 ∧ wClosed ∈ q.dirty ∧
    q.tracker.prev = p.tracker.prev ∧ q.tracker.cur = p.tracker.cur ∧
    q.holes = { table := p.holes.table.map (fun x => if own x then none else x),
                prevRuns := freed p.holes.prevRuns, curRuns := freed p.holes.curRuns } ∧
    (∀ i, o = .entry i → q.lots.recent =
      (if 16 ≤ p.lots.recent.length then p.lots.recent.tail else p.lots.recent) ++
        [{ number := h.number, lot := h.lot, firstRow := h.firstRow, lastRow := h.lastRow }]) ∧
    (o = .spill → q.lots.recent = p.lots.recent) ∧
    (∀ m ∈ q.lots.markQueue, q.hasOpenCandidate m.target = true) ∧
    (cause = .restart → p.recorder.outgoing.length < 8 →
      (p.recorder.outgoing ++ [.hide info (.unstamped .truncated) none]) <+: q.recorder.outgoing) ∧
    (cause ≠ .restart → p.recorder.outgoing.length < 8 → ∀ r, p.unstampedReason info = some r →
      (p.recorder.outgoing ++ [.hide info (.unstamped r) none]) <+: q.recorder.outgoing) ∧
    (cause ≠ .restart → p.unstampedReason info = none → ∃ j ∈ q.jobs, j.info = info)) ∧
  (∀ p : Part,
    let sorted := fun l : List Owner => l.Pairwise (fun a b => ∀ x y, p.hideOf a = some x → p.hideOf b = some y →
      (p.tracker.rowIndex - y.firstRow).toNat < (p.tracker.rowIndex - x.firstRow).toNat ∨
        (x.firstRow = y.firstRow ∧ x.number ≤ y.number))
    let all := p.closeOrder p.openOwners
    p.toClose.Nodup ∧ all.Nodup ∧
    (∀ o, o ∈ p.toClose ↔ (p.hideOf o).isSome = true ∧ ∀ s ∈ p.tracker.cur, s.owner ≠ o) ∧
    (∀ o, o ∈ all ↔ (p.hideOf o).isSome = true) ∧
    ((∀ h ∈ p.openHides, (p.tracker.rowIndex - h.firstRow).toNat < 2147483648) → sorted p.toClose ∧ sorted all)) ∧
  (∀ (s : State) (r : CondRow) (o : Owner) (os : List Owner),
    (s.part.tracker.pass = some { row := r, stage := .closingCheck } →
      ∃ t, exec (.rowPass (some 1)) s = .next t ∧
        t.part.tracker.pass = some { row := r, stage := .closing t.part.toClose }) ∧
    (s.part.tracker.pass = some { row := r, stage := .closing (o :: os) } →
      exec (.rowPass (some 1)) s = .next { s with
        part := { s.part.closeHide .row o with tracker.pass := some { row := r, stage := .closing os } } }) ∧
    (s.part.tracker.pass = some { row := r, stage := .truncating (o :: os) } →
      exec (.rowPass (some 1)) s = .next { s with
        part := { s.part.closeHide .gap o with tracker.pass := some { row := r, stage := .truncating os } } }) ∧
    (s.part.tracker.pass = some { row := r, stage := .truncating [] } →
      exec (.rowPass (some 1)) s = .next { s with
        part.tracker.prev := []
        part.tracker.cur := []
        part.tracker.pass := some { row := r, stage := .segmentation }
        part.holes.prevRuns := []
        part.holes.curRuns := []
        part.sched.heights := s.part.sched.heights.map (fun _ => 0) })) ∧
  (∀ (s : State) (r : CondRow) (rest : List CondRow),
    s.part.tracker.pass = none → s.part.intake.queue = r :: rest → r.trunc = true →
    ∃ t, exec (.rowPass (some 0)) s = .next t ∧
      t.part.tracker.pass = some { row := r, stage := .truncating (s.part.closeOrder s.part.openOwners) })

/-! ### Holes (chapter 3) -/

/-- The candidate gaps (R49): left to right, the columns between each two consecutive segments that one hide-table entry owns both
of, never the spill account. Classification of a candidate gap (R50, R51), for hole-run lists in which no two runs share a column
(R53), and what each class does: a birth; a continuation, whose holes become the one of the earliest first row, the lower index on
equal ones, and grow by the gap (R56, R57); no hole, which breaches every hole the gap overlaps, whoever owns it (R58). -/
def Obligations.GapClassification : Prop :=
  (∀ segs : List Seg,
    candidateGaps segs = (segs.zip segs.tail).filterMap (fun x => match x.1.owner, x.2.owner with
      | .entry i, .entry j => if i = j then some { start := x.1.stop + 1, stop := x.2.start - 1, owner := i } else none
      | _, _ => none) ∧
    (segs.Pairwise (fun a b => a.stop + 1 < b.start) → ∀ g ∈ candidateGaps segs, g.start ≤ g.stop)) ∧
  ∀ (p : Part) (g : Gap), g.start ≤ g.stop →
    (∀ r ∈ p.holes.prevRuns, r.hole < 32) →
    (∀ r ∈ p.holes.prevRuns, ∀ r' ∈ p.holes.prevRuns, ∀ c, r.has c = true → r'.has c = true → r = r') →
    let own := fun c => ∃ s ∈ p.tracker.prev, s.owner = .entry g.owner ∧ s.start ≤ c ∧ c ≤ s.stop
    let run := fun c => ∃ r ∈ p.holes.prevRuns, r.start ≤ c ∧ c ≤ r.stop ∧
      ∃ x, p.holes.table[r.hole]? = some (some x) ∧ x.owner = g.owner
    let touched := ∃ r ∈ p.holes.prevRuns, r.start ≤ g.stop ∧ g.start ≤ r.stop
    (p.classOf g = .notAHole ↔ ∃ c, g.start ≤ c ∧ c ≤ g.stop ∧ ¬ own c ∧ ¬ run c) ∧
    (p.classOf g = .birth ↔ (∀ c, g.start ≤ c → c ≤ g.stop → own c ∨ run c) ∧ ¬ touched) ∧
    (p.classOf g = .continuation ↔ (∀ c, g.start ≤ c → c ≤ g.stop → own c ∨ run c) ∧ touched) ∧
    let hs := p.holesOver g
    let width := g.stop + 1 - g.start
    let kept := fun l : List Run => l.filter (fun r => decide (r.hole ∉ hs))
    let renamed := fun (b : Nat) (l : List Run) => l.map (fun r => if r.hole ∈ hs then { r with hole := b } else r)
    (∀ h, h ∈ hs ↔ ∃ r ∈ p.holes.prevRuns, r.hole = h ∧ r.start ≤ g.stop ∧ g.start ≤ r.stop) ∧
    (p.classOf g = .birth → p.classifyGap g = p.holeBirth g) ∧
    (p.classOf g = .continuation → p.holes.curRuns.length < 64 → ∀ (b : Nat) (x : Hole),
      b ∈ hs → p.holes.table[b]? = some (some x) →
      (∀ h ∈ hs, h ≠ b → ∃ y, p.holes.table[h]? = some (some y) ∧
        ((x.firstRow ≠ y.firstRow ∧ (y.firstRow - x.firstRow).toNat < 2147483648) ∨ (x.firstRow = y.firstRow ∧ b < h))) →
      p.classifyGap g = { p with holes := {
        table := p.holes.table.mapIdx (fun i h =>
          if i = b then some { x with
            cells := min 65535 ((hs.map (fun k => ((p.holes.table.getD k none).map Hole.cells).getD 0)).sum + width) }
          else if i ∈ hs then none else h)
        prevRuns := renamed b p.holes.prevRuns
        curRuns := renamed b p.holes.curRuns ++ [{ start := g.start, stop := g.stop, hole := b }] } }) ∧
    (p.classOf g = .notAHole → p.classifyGap g = p.breachOver g) ∧
    ((∀ h ∈ hs, ∃ x, p.holes.table[h]? = some (some x)) →
      (p.breachOver g).holes = { table := p.holes.table.mapIdx (fun i h => if i ∈ hs then none else h),
                                 prevRuns := kept p.holes.prevRuns, curRuns := kept p.holes.curRuns } ∧
      p.breachOver g = { p with tracker.table := (p.breachOver g).tracker.table, holes := (p.breachOver g).holes } ∧
      ∀ e y, p.hideOf (.entry e) = some y →
        let n := (hs.filter (fun h => (p.holes.table.getD h none).any (fun x => decide (x.owner = e)))).length
        (p.breachOver g).hideOf (.entry e) = some { y with
          holesBreached := if n = 0 then y.holesBreached else min 65535 (y.holesBreached + n) })

/-- A hole birth (R54), the gap that finds no room for one, and the continuation that finds no room for its run: the holes it
overlaps are breached (R55). -/
def Obligations.HoleBirth : Prop :=
  ∀ (p : Part) (g : Gap),
    (∀ h, h < p.holes.table.length → p.holes.table[h]? = some none →
      (∀ j : Nat, j < h → p.holes.table[j]? ≠ some none) → p.holes.curRuns.length < 64 →
      p.holeBirth g = { p with
        holes.table := p.holes.table.set h
          (some { owner := g.owner, firstRow := p.tracker.rowIndex, cells := min 65535 (g.stop + 1 - g.start) })
        holes.curRuns := p.holes.curRuns ++ [{ start := g.start, stop := g.stop, hole := h }] }) ∧
    (((∀ j : Nat, p.holes.table[j]? ≠ some none) ∨ 64 ≤ p.holes.curRuns.length) →
      (p.holeBirth g).holes = p.holes ∧
      ∀ x, p.tracker.table[g.owner]? = some (some x) →
        (x.flags.holeLimit = true → p.holeBirth g = p) ∧
        (x.flags.holeLimit = false →
          (p.holeBirth g).tracker.table = p.tracker.table.set g.owner (some { x with flags.holeLimit := true }) ∧
          (p.recorder.outgoing.length < 8 → (p.holeBirth g).recorder.outgoing =
            p.recorder.outgoing ++ [.event .holeTableFull p.tracker.rowIndex (x.number.setWidth 32)]))) ∧
    (p.classOf g = .continuation → 64 ≤ p.holes.curRuns.length →
      let q := p.breachOver g
      (p.classifyGap g).holes = q.holes ∧
      ∀ x, q.tracker.table[g.owner]? = some (some x) →
        (x.flags.holeLimit = true → p.classifyGap g = q) ∧
        (x.flags.holeLimit = false →
          (p.classifyGap g).tracker.table = q.tracker.table.set g.owner (some { x with flags.holeLimit := true }) ∧
          (p.recorder.outgoing.length < 8 → (p.classifyGap g).recorder.outgoing =
            p.recorder.outgoing ++ [.event .holeTableFull p.tracker.rowIndex (x.number.setWidth 32)])))

/-- The closing check of one hole (R59 to R61): an open cell breaches it, a continuing cell keeps it, every cell capped closes it
filled or large. -/
def Obligations.HoleClosingCheck : Prop :=
  ∀ (p : Part) (h : Nat) (x : Hole) (y : Hide),
    p.holes.table[h]? = some (some x) → p.tracker.table[x.owner]? = some (some y) →
    let under := fun c => ∃ r ∈ p.holes.prevRuns, r.hole = h ∧ r.start ≤ c ∧ c ≤ r.stop
    let going := fun c => ∃ r ∈ p.holes.curRuns, r.hole = h ∧ r.start ≤ c ∧ c ≤ r.stop
    let capped := fun c => ∃ s ∈ p.tracker.cur, s.owner = .entry x.owner ∧ s.start ≤ c ∧ c ≤ s.stop
    ((∃ c, under c ∧ ¬ going c ∧ ¬ capped c) →
      p.checkHole h = { p with
        tracker.table := p.tracker.table.set x.owner (some { y with holesBreached := min 65535 (y.holesBreached + 1) })
        holes.table := p.holes.table.set h none
        holes.prevRuns := p.holes.prevRuns.filter (fun r => decide (r.hole ≠ h))
        holes.curRuns := p.holes.curRuns.filter (fun r => decide (r.hole ≠ h)) }) ∧
    ((∀ c, under c → going c ∨ capped c) → (∃ c, under c ∧ going c) → p.checkHole h = p) ∧
    ((∀ c, under c → capped c ∧ ¬ going c) → (∃ c, under c) →
      p.checkHole h = { p with
        tracker.table := p.tracker.table.set x.owner (some
          (if x.cells ≤ p.setup.guarded.fillLimit then
            { y with filled := min 4294967295 (y.filled + x.cells), holesFilled := min 65535 (y.holesFilled + 1) }
          else { y with holesLarge := min 65535 (y.holesLarge + 1) }))
        holes.table := p.holes.table.set h none })

/-! ### Footage and grading (chapter 4) -/

/-- The units of a cell count (R69 to R71): the quotient of R70 rounded as set. -/
def Obligations.UnitsAreTheRoundedQuotient : Prop :=
  ∀ (g : Guarded) (cells : Nat), -500 ≤ g.trim → g.trim ≤ 500 →
    ∀ num den : Nat, (num : Int) = cells * (g.beamPitch * g.rowPitch) * (10000 + g.trim) →
      den = 10000 * (match g.unit with | .qft => 23225760000 | .tft => 9290304000 | .dm2 => 10000000000) →
      (g.rounding = .down → unitsOf g cells * den ≤ num ∧ num < (unitsOf g cells + 1) * den) ∧
      (g.rounding = .nearest →
        2 * (unitsOf g cells * den) ≤ 2 * num + den ∧ 2 * num + den < 2 * ((unitsOf g cells + 1) * den))

/-- R73 whole: the wheel symbols of units the wheels can show. -/
def Obligations.WheelSymbols : Prop :=
  ∀ units : Nat,
    (units ≤ 3999 → symbolsOf .qft units = some
      { w1 := if units / 4 < 100 then 10 else units / 4 / 100 % 10
        w2 := if units / 4 < 10 then 10 else units / 4 / 10 % 10
        w3 := units / 4 % 10
        w4 := if units % 4 = 0 then 10 else if units % 4 = 1 then 11 else if units % 4 = 2 then 12 else 13 }) ∧
    (units ≤ 9999 → symbolsOf .tft units = some
      { w1 := if units / 10 < 100 then 10 else units / 10 / 100 % 10
        w2 := if units / 10 < 10 then 10 else units / 10 / 10 % 10
        w3 := units / 10 % 10
        w4 := units % 10 }) ∧
    (units ≤ 9999 → symbolsOf .dm2 units = some
      { w1 := if units < 1000 then 10 else units / 1000 % 10
        w2 := if units < 100 then 10 else units / 100 % 10
        w3 := if units < 10 then 10 else units / 10 % 10
        w4 := units % 10 }) ∧
    (symbolsOf .qft 84 = some { w1 := 10, w2 := 2, w3 := 1, w4 := 10 }) ∧
    (symbolsOf .tft 210 = some { w1 := 10, w2 := 2, w3 := 1, w4 := 0 }) ∧
    (symbolsOf .qft 0 = some { w1 := 10, w2 := 10, w3 := 0, w4 := 10 }) ∧
    (symbolsOf .tft 0 = some { w1 := 10, w2 := 10, w3 := 0, w4 := 0 }) ∧
    (symbolsOf .dm2 0 = some { w1 := 10, w2 := 10, w3 := 10, w4 := 0 })

/-- The grade by its steps in order (R72, R74 to R77): REVIEW, SMALL, OVERSIZE, then the lowest enabled band that holds the units;
above the maximum the wheels are unused. Units above it and below a still larger small limit are SMALL, as R76 has it and R74 does
not (log entry 38). -/
def Obligations.GradeSteps : Prop :=
  ∀ (g : Guarded) (u : Unguarded) (src : Source) (f : HideFlags) (units : Nat),
    let top := match g.unit with | .qft => 3999 | .tft => 9999 | .dm2 => 9999
    let review := f.double = true ∨ f.spillJoined = true ∨ f.edge = true ∨ f.truncated = true ∨ src = .spill
    let grade := gradeOf g u src f units none
    (review → grade = .review) ∧
    (¬ review → units < u.smallLimit → grade = .small) ∧
    (¬ review → u.smallLimit ≤ units → (u.oversizeLimit < units ∨ top < units) → grade = .oversize) ∧
    (¬ review → u.smallLimit ≤ units → units ≤ u.oversizeLimit → units ≤ top →
      ∀ (k : Nat) (b : Band), u.bands[k]? = some b → b.low ≤ units → units ≤ b.high →
        (∀ (j : Nat) (c : Band), j < k → u.bands[j]? = some c → ¬ (c.low ≤ units ∧ units ≤ c.high)) → grade = .band k) ∧
    (top < units → symbolsOf g.unit units = none) ∧ (units ≤ top → (symbolsOf g.unit units).isSome = true)

/-- R78 whole: UNGRADED, and the band override of a manual entry. -/
def Obligations.UngradedAndOverride : Prop :=
  ∀ (g : Guarded) (u : Unguarded) (units : Nat),
    let top := match g.unit with | .qft => 3999 | .tft => 9999 | .dm2 => 9999
    let passes := u.smallLimit ≤ units ∧ units ≤ u.oversizeLimit ∧ units ≤ top
    (∀ src f, f.review = false → src ≠ .spill → passes →
      (∀ (k : Nat) (b : Band), u.bands[k]? = some b → ¬ (b.low ≤ units ∧ units ≤ b.high)) →
      gradeOf g u src f units none = .ungraded) ∧
    (∀ src f, f.review = false → src ≠ .spill → passes → u.bands = Unguarded.powerOn.bands →
      gradeOf g u src f units none = .ungraded) ∧
    (∀ k, k ≤ 7 → passes → gradeOf g u .manual HideFlags.empty units (some k) = .band k) ∧
    (∀ k, units < u.smallLimit → gradeOf g u .manual HideFlags.empty units k = .small) ∧
    (∀ k, u.smallLimit ≤ units → (u.oversizeLimit < units ∨ top < units) →
      gradeOf g u .manual HideFlags.empty units k = .oversize) ∧
    (∀ k, gradeOf g u .manual HideFlags.empty units k ≠ .review) ∧
    (gradeOf g u .manual HideFlags.empty units none = gradeOf g u .belt HideFlags.empty units none)

/-- The record fields of a hide handed over (R44, R68, R69, R84): its own, with the units of its covered and filled cells together,
their symbols and the grade. The eligibility checks in their order (R79 to R82), and what the hand-over makes of them (R74, R83,
R114). -/
def Obligations.EligibilityChecks : Prop :=
  ∀ (p : Part) (src : Source) (h : Hide),
    let info := p.infoOf src h
    let strike := fun x : Site => x.row + BitVec.ofNat 32 p.setup.guarded.lineOffset
    let ungradedOrOn := ∀ k, info.grade = .band k → (p.setup.unguarded.bands[k]?.map Band.stamp) ≠ some false
    let cleared := info.grade ≠ .review ∧ info.grade ≠ .small ∧ info.grade ≠ .oversize
    (let g := p.setup.guarded
     let units := unitsOf g (h.covered + h.filled)
     info = {
      source := src, grade := gradeOf g p.setup.unguarded src h.flags units none, number := h.number, lot := h.lot
      merges := h.merges, firstRow := h.firstRow, lastRow := h.lastRow, minCol := h.minCol, maxCol := h.maxCol
      covered := h.covered, filled := h.filled, units := units, symbols := symbolsOf g.unit units
      holesFilled := h.holesFilled, holesLarge := h.holesLarge, holesBreached := h.holesBreached, flags := h.flags
      site := h.site }) ∧
    (info.grade = .review → p.unstampedReason info = some .review) ∧
    (info.grade = .small → p.unstampedReason info = some .small) ∧
    (info.grade = .oversize → p.unstampedReason info = some .oversize) ∧
    (∀ k b, info.grade = .band k → p.setup.unguarded.bands[k]? = some b → b.stamp = false →
      p.unstampedReason info = some .bandOff) ∧
    (cleared → ungradedOrOn → p.setup.unguarded.stamping = false → p.unstampedReason info = some .stampOff) ∧
    (cleared → ungradedOrOn → p.setup.unguarded.stamping = true →
      (p.head.state = .faulted → p.unstampedReason info = some .headFault) ∧
      (p.head.state ≠ .faulted →
        (h.site = none → p.unstampedReason info = some .noSite) ∧
        (∀ x, h.site = some x →
          ((p.tracker.rowIndex - strike x).toNat < 2147483648 → p.unstampedReason info = some .lateClose) ∧
          (2147483648 ≤ (p.tracker.rowIndex - strike x).toNat → 8 ≤ p.jobs.length →
            p.unstampedReason info = some .queueFull) ∧
          (2147483648 ≤ (p.tracker.rowIndex - strike x).toNat → p.jobs.length < 8 →
            p.unstampedReason info = none)))) ∧
    (∀ r, p.unstampedReason info = some r → p.takeHide src .row h = p.leaveUnstamped info r) ∧
    (p.unstampedReason info = none →
      ∃ x y, h.site = some x ∧ info.symbols = some y ∧ p.takeHide src .row h = p.makeJob info x y) ∧
    (h.flags.truncated = true → info.grade = .review ∧ p.takeHide src .restart h = p.leaveUnstamped info .truncated)

/-- MANUAL_ENTER (R95, R96): refused RANGE with no other effect, or one manual hide, tallied and recorded UNSTAMPED(MANUAL). -/
def Obligations.ManualEnter : Prop :=
  ∀ (tag : Half) (s : State),
    let units := (s.part.setup.arg1.extractLsb' 0 16).toNat
    let band := (s.part.setup.arg2.extractLsb' 0 8).toNat
    let ovr := s.part.setup.arg2.getLsbD 8
    (units = 0 ∨ (ovr = true ∧ 7 < band) →
      exec (.manualEnter tag) s = .next { s with part := s.part.answer tag 3 .range }) ∧
    (units ≠ 0 → (ovr = true → band ≤ 7) → s.part.recorder.outgoing.length < 8 →
      s.part.lots.openLot.tally.hides < 65535 →
      (∀ c, s.part.lots.closing = some c → c.id ≠ s.part.lots.openLot.id) →
      ∃ t info, exec (.manualEnter tag) s = .next t ∧ t.path = s.path ∧
        t.part.recorder.outgoing = s.part.recorder.outgoing ++ [.hide info (.unstamped .manual) none] ∧
        info.source = .manual ∧ info.number = s.part.drawNumber.1 ∧ info.lot = s.part.lots.openLot.id ∧
        info.units = units ∧ info.symbols = symbolsOf s.part.setup.guarded.unit units ∧
        info.grade = gradeOf s.part.setup.guarded s.part.setup.unguarded .manual HideFlags.empty units
          (if ovr then some band else none) ∧
        info.firstRow = 0 ∧ info.lastRow = 0 ∧ info.minCol = 0 ∧ info.maxCol = 0 ∧ info.covered = 0 ∧ info.filled = 0 ∧
        info.merges = 0 ∧ info.holesFilled = 0 ∧ info.holesLarge = 0 ∧ info.holesBreached = 0 ∧
        info.flags = HideFlags.empty ∧ info.site = none ∧
        t.part.lots.openLot.tally.hides = s.part.lots.openLot.tally.hides + 1 ∧
        t.part.lots.openLot.tally.manual = s.part.lots.openLot.tally.manual + 1 ∧
        t.part.lots.openLot.tally.unstamped = s.part.lots.openLot.tally.unstamped + 1 ∧
        t.part.lots.openLot.tally.births = s.part.lots.openLot.tally.births ∧
        t.part.lots.closing = s.part.lots.closing ∧ t.part.lots.recent = s.part.lots.recent ∧
        t.part.tracker.table = s.part.tracker.table ∧ t.part.sched = s.part.sched ∧ t.part.head = s.part.head ∧
        t.part.belt = s.part.belt ∧ t.part.intake = s.part.intake ∧
        t.part.tracker.counter = nextNumber s.part.drawNumber.1 ∧
        t.part.setup.result = { tag := tag, code := 3, result := .done, offset := 0 })

/-! ### Lots and marks (chapter 5) -/

/-- LOT_NEXT (R87, R89, R94, R100): refused BUSY, or a lot transition; with no pass in progress a lot that nothing holds closes in
the same step with its LOT record. The closing test (R88, R89): what holds a lot, its closing, and the pack transition that waited
for it, with the test that follows. -/
def Obligations.LotNext : Prop :=
  ∀ (tag : Half) (s : State),
    let id : Half := s.part.setup.arg1.extractLsb' 0 16
    let boundary := s.part.tracker.rowIndex + 1
    (s.part.lots.closing.isSome = true ∨ id = s.part.lots.openLot.id →
      exec (.lotNext tag) s = .next { s with part := s.part.answer tag 2 .busy }) ∧
    (s.part.lots.closing = none → id ≠ s.part.lots.openLot.id →
      ∃ t, exec (.lotNext tag) s = .next t ∧ t.path = s.path ∧
        t.part.setup.result = { tag := tag, code := 2, result := .done, offset := 0 } ∧
        t.part.tracker = s.part.tracker ∧ t.part.intake = s.part.intake ∧ t.part.head = s.part.head ∧
        t.part.setup.unguarded.windows = s.part.setup.unguarded.windows.map
          (fun w => if w.enable = .lot then { w with enable := .off } else w) ∧
        t.part.setup.staged = s.part.setup.staged ∧
        (s.part.tracker.pass.isSome = true →
          t.part.lots.openLot = Lot.fresh id boundary ∧ t.part.lots.closing = some s.part.lots.openLot ∧
          t.part.lots.packCounter = 0 ∧ t.part.recorder = s.part.recorder) ∧
        (s.part.tracker.pass = none → s.part.lotHeld s.part.lots.openLot.id = true →
          t.part.lots.openLot = Lot.fresh id boundary ∧ t.part.lots.closing = some s.part.lots.openLot) ∧
        (s.part.tracker.pass = none → s.part.lotHeld s.part.lots.openLot.id = false →
          s.part.lots.packPending = false → s.part.recorder.outgoing.length < 8 →
          t.part.lots.openLot = Lot.fresh id boundary ∧ t.part.lots.closing = none ∧
          t.part.recorder.outgoing = s.part.recorder.outgoing ++ [.lot s.part.lots.openLot])) ∧
    let p := s.part
    let due := p.setup.unguarded.packSize ≠ 0 ∧ p.setup.unguarded.packSize ≤ p.lots.packCounter
    let packed : Lot := { p.lots.openLot with packAuto := true }
    let next := Lot.fresh (p.lots.openLot.id + 1) boundary
    (∀ l : Half, p.lotHeld l = true ↔ (∃ h ∈ p.openHides, h.lot = l) ∨ ∃ j ∈ p.jobs, j.info.lot = l) ∧
    ((p.tracker.pass.isSome = true ∨ p.lots.closing = none) → p.closingTest = p) ∧
    (∀ l, p.tracker.pass = none → p.lots.closing = some l →
      (p.lotHeld l.id = true → p.closingTest = p) ∧
      (p.lotHeld l.id = false → p.recorder.outgoing.length < 7 →
        let q := p.closingTest
        q.openHides = p.openHides ∧ q.jobs = p.jobs ∧ wClosingLot ∈ q.dirty ∧ q.lots.packPending = false ∧
        ((p.lots.packPending = false ∨ ¬ due) →
          q.lots.openLot = p.lots.openLot ∧ q.lots.closing = none ∧ q.lots.packCounter = p.lots.packCounter ∧
          q.recorder.outgoing = p.recorder.outgoing ++ [.lot l]) ∧
        (p.lots.packPending = true → due →
          q.lots.openLot = next ∧ q.lots.packCounter = 0 ∧ wOpenLot ∈ q.dirty ∧
          (p.lotHeld packed.id = true →
            q.lots.closing = some packed ∧ q.recorder.outgoing = p.recorder.outgoing ++ [.lot l]) ∧
          (p.lotHeld packed.id = false →
            q.lots.closing = none ∧ q.recorder.outgoing = p.recorder.outgoing ++ [.lot l, .lot packed]))))

/-- The tally of a hide (R91, R92): the count of its grade goes up, the grade counts keep adding up to the hides, the counts keep
their widths, and at 65535 hides the tally stands still. A release (R91, R126) counts the hide in the OPEN or CLOSING lot its lot id
names, then hands its record to the record writer; a lot is told by its id alone (log entry 15). -/
def Obligations.TallyAddsUp : Prop :=
  (∀ (p : Part) (info : HideInfo) (o : StampOutcome) (strike : Option Word),
    (∀ c, p.lots.closing = some c → c.id ≠ p.lots.openLot.id) →
    let counted := fun l : Lot => if l.id = info.lot then { l with tally := l.tally.addHide info o } else l
    p.release info o strike = ({ p with
      lots.openLot := counted p.lots.openLot
      lots.closing := p.lots.closing.map counted } : Part).emit (.hide info o strike)) ∧
  ∀ (t : Tally) (info : HideInfo) (o : StampOutcome), t.bands.length = 8 → (∀ k, info.grade = .band k → k < 8) →
    (t.gradeSum = t.hides → (t.addHide info o).gradeSum = (t.addHide info o).hides) ∧
    (t.fits → (t.addHide info o).fits) ∧
    (t.hides = 65535 → t.addHide info o = t) ∧
    (t.hides < 65535 →
      (t.addHide info o).hides = t.hides + 1 ∧
      (t.addHide info o).totalUnits = min 4294967295 (t.totalUnits + info.units) ∧
      (t.addHide info o).births = t.births ∧ (t.addHide info o).marks = t.marks ∧
      (∀ k, (t.addHide info o).bands.getD k 0 = t.bands.getD k 0 + (if info.grade = .band k then 1 else 0)) ∧
      (t.addHide info o).small = t.small + (if info.grade = .small then 1 else 0) ∧
      (t.addHide info o).oversize = t.oversize + (if info.grade = .oversize then 1 else 0) ∧
      (t.addHide info o).review = t.review + (if info.grade = .review then 1 else 0) ∧
      (t.addHide info o).ungraded = t.ungraded + (if info.grade = .ungraded then 1 else 0) ∧
      ((t.addHide info o).stamped = t.stamped + (if o = .stamped then 1 else 0)) ∧
      ((t.addHide info o).unstamped = t.unstamped + (if o.cls = 2 then 1 else 0)) ∧
      ((t.addHide info o).manual = t.manual + (if info.source = .manual then 1 else 0)))

/-- A beat against the mark windows (R97 to R99, R101): a match of an enabled window sets the sticky flag of every window matched,
and each enabled window matched raises a mark, in ascending number: its data each window byte in its own lane, its hit row the row
index, its hit lot the OPEN lot, its target row the lag before. Without such a match nothing changes. -/
def Obligations.MarkWindowMatch : Prop :=
  ∀ (write : Bool) (wordAddr : BitVec 22) (en : Lanes) (data : Word) (s : State),
    let hits := fun w : Window => (write || w.readWrite) = true ∧
      ∃ l, l < 4 ∧ en.getLsbD l = true ∧ w.base ≤ 4 * wordAddr.toNat + l ∧ 4 * wordAddr.toNat + l < w.base + w.size
    s.part.setup.unguarded.windows.length = 4 →
    ((∀ w ∈ s.part.setup.unguarded.windows, hits w → w.enable = .off) →
      exec (.markWindowMatch write wordAddr en data) s = .next s) ∧
    ((∃ w ∈ s.part.setup.unguarded.windows, hits w ∧ w.enable ≠ .off) →
      ∃ t, exec (.markWindowMatch write wordAddr en data) s = .next t ∧ t.path = s.path ∧
        t.part.tracker = s.part.tracker ∧ t.part.sched = s.part.sched ∧ t.part.head = s.part.head ∧
        t.part.setup = s.part.setup ∧ t.part.intake = s.part.intake ∧ t.part.belt = s.part.belt ∧
        (∀ k w, s.part.setup.unguarded.windows[k]? = some w →
          (t.part.lots.sticky.getLsbD k = true ↔ s.part.lots.sticky.getLsbD k = true ∨ hits w)) ∧
        ∃ (ks : List Nat) (ds : Nat → Word) (b : BitVec 4),
          ks.Pairwise (· < ·) ∧
          (∀ k, k ∈ ks ↔ ∃ w, s.part.setup.unguarded.windows[k]? = some w ∧ hits w ∧ w.enable ≠ .off) ∧
          (∀ k, k ∈ ks → ∀ w, s.part.setup.unguarded.windows[k]? = some w → ∀ l, l < 4 →
            laneByte (ds k) l =
              if en.getLsbD l = true ∧ w.base ≤ 4 * wordAddr.toNat + l ∧ 4 * wordAddr.toNat + l < w.base + w.size then
                laneByte data l
              else 0) ∧
          t.part = ks.foldl (fun p k => p.raiseMark k (ds k)) (s.part.setSticky b)) ∧
    (∀ b : BitVec 4,
      (s.part.setSticky b).lots = { s.part.lots with sticky := s.part.lots.sticky ||| b } ∧
      s.part.setSticky b = { s.part with lots := (s.part.setSticky b).lots, dirty := (s.part.setSticky b).dirty } ∧
      (s.part.lots.sticky ||| b ≠ s.part.lots.sticky → wSticky ∈ (s.part.setSticky b).dirty)) ∧
    ∀ (p : Part) (k : Nat) (d : Word),
      let hitRow := p.tracker.rowIndex
      let lag := p.setup.unguarded.markLag
      (hitRow.toNat < lag → p.recorder.outgoing.length < 8 →
        p.raiseMark k d = { p with
          lots.openLot.tally.marks := min 65535 (p.lots.openLot.tally.marks + 1)
          recorder.outgoing := p.recorder.outgoing ++ [.mark k d hitRow none false p.lots.openLot.id] }) ∧
      (lag ≤ hitRow.toNat →
        p.raiseMark k d = p.placeMark
          { window := k, data := d, hitRow := hitRow, hitLot := p.lots.openLot.id, target := hitRow - BitVec.ofNat 32 lag })

/-- R103 whole: the mark queue. -/
def Obligations.MarkQueue : Prop :=
  (∀ (p : Part) (m : Mark),
    (p.hasOpenCandidate m.target = true → p.lots.markQueue.length < 16 →
      p.placeMark m = { p with lots.markQueue := p.lots.markQueue ++ [m] }) ∧
    (p.hasOpenCandidate m.target = true → 16 ≤ p.lots.markQueue.length →
      (p.placeMark m).lots = { p.lots with marksDropped := p.lots.marksDropped + 1, markDropSticky := true } ∧
      (p.placeMark m).recorder = p.recorder ∧ wMarksDropped ∈ (p.placeMark m).dirty ∧
      (p.lots.markDropSticky = false → wSticky ∈ (p.placeMark m).dirty)) ∧
    (p.hasOpenCandidate m.target = false →
      p.placeMark m = p.resolveMark m ∧ (p.placeMark m).lots.markQueue = p.lots.markQueue ∧
      (p.placeMark m).lots.marksDropped = p.lots.marksDropped)) ∧
  (∀ p : Part, p.reexamineMarks.lots.markQueue = p.lots.markQueue.filter (fun m => p.hasOpenCandidate m.target)) ∧
  (∀ (straps : BitVec 3) (s : State), ∃ t, exec (.powerOnReset straps) s = .next t ∧ t.part.lots.markQueue = [])

/-- The resolution of a mark without an open candidate (R101, R102, R106): one MARK record, for the recent hide of the lowest first
row and number that covered the target row, or for no hide. -/
def Obligations.MarkResolution : Prop :=
  ∀ (p : Part) (m : Mark), p.recorder.outgoing.length < 8 →
    let fits := fun r : RecentHide =>
      (m.target - r.firstRow).toNat < 2147483648 ∧ (r.lastRow - m.target).toNat < 2147483648
    ((∀ r ∈ p.lots.recent, ¬ fits r) →
      (p.resolveMark m).recorder.outgoing =
        p.recorder.outgoing ++ [.mark m.window m.data m.hitRow none false m.hitLot]) ∧
    ((∃ r ∈ p.lots.recent, fits r) →
      ∃ r ∈ p.lots.recent, fits r ∧
        (∀ c ∈ p.lots.recent, fits c →
          (m.target - c.firstRow).toNat < (m.target - r.firstRow).toNat ∨
            (c.firstRow = r.firstRow ∧ r.number ≤ c.number)) ∧
        (p.resolveMark m).recorder.outgoing = p.recorder.outgoing ++
          [.mark m.window m.data m.hitRow (some r.number)
            (decide (2 ≤ (p.lots.recent.filter (fun c => decide (fits c))).length)) r.lot]) ∧
    (p.resolveMark m).tracker = p.tracker ∧ (p.resolveMark m).lots.recent = p.lots.recent

/-! ### Stamp sites and the job queue (chapter 6) -/

/-- The site stage (R109, R111, R112): new heights; of a segment's windows that qualify the nearest to the centre, the smaller column
on a tie; an entry's site becomes the current row and the column that the leftmost of its segments with such a window offers, and
stays as it was when none has one; the spill account and all else are passed by. -/
def Obligations.SiteSearch : Prop :=
  (∀ (p : Part) (r : CondRow),
    let q := p.siteStage r
    q = { p with tracker.table := q.tracker.table, sched.heights := q.sched.heights } ∧
    q.tracker.table.length = p.tracker.table.length ∧
    ∀ e,
      let offers := (p.tracker.cur.filter (fun s => decide (s.owner = .entry e))).filterMap
        (siteIn p.setup.guarded q.sched.heights)
      (p.hideOf (.entry e) = none → q.hideOf (.entry e) = none) ∧
      ∀ h, p.hideOf (.entry e) = some h →
        (offers = [] → q.hideOf (.entry e) = some h) ∧
        (∀ l rest, offers = l :: rest →
          q.hideOf (.entry e) = some { h with site := some { row := p.tracker.rowIndex, col := l } })) ∧
  (∀ (p : Part) (r : CondRow) (c : Nat), p.sched.heights.length = 384 → c < 384 →
    (p.siteStage r).sched.heights.getD c 0 =
      if c < p.setup.guarded.beams then
        (if r.covered.getLsbD c then min 63 (p.sched.heights.getD c 0 + 1) else 0)
      else p.sched.heights.getD c 0) ∧
  (∀ (g : Guarded) (heights : List Nat) (s : Seg), heights.length = 384 → s.stop < 384 → 1 ≤ g.sw →
    let fits := fun l => s.start ≤ l ∧ l + g.sw ≤ s.stop + 1 ∧ 1 ≤ l ∧ l + g.sw ≤ g.beams - 1 ∧
      ∀ c, l ≤ c → c < l + g.sw → g.sl ≤ heights.getD c 0
    let far := fun l : Nat => ((2 * l + g.sw - 1 : Int) - (s.start + s.stop)).natAbs
    (siteIn g heights s = none ↔ ∀ l, ¬ fits l) ∧
    (∀ l, siteIn g heights s = some l →
      fits l ∧ ∀ k, fits k → far l < far k ∨ (far l = far k ∧ l ≤ k)))

/-- Making a job and placing it (R114, R116): strike row and target column, and the waiting jobs stay in order of strike row ahead
of the row index, then target column, a newcomer behind its equals. -/
def Obligations.JobQueueOrder : Prop :=
  (∀ (p : Part) (j : Job),
    let key := fun x : Job => ((x.strikeRow - p.tracker.rowIndex).toNat, x.target)
    let le := fun a b : Job => (key a).1 < (key b).1 ∨ ((key a).1 = (key b).1 ∧ (key a).2 ≤ (key b).2)
    p.sched.waiting.Pairwise le →
    (p.placeJob j).sched.waiting.Pairwise le ∧
    ∃ pre post, p.sched.waiting = pre ++ post ∧
      (p.placeJob j).sched.waiting = pre ++ { j with state := .queued } :: post ∧
      (∀ x ∈ pre, le x j) ∧ (∀ x ∈ post, ¬ le x j)) ∧
  (∀ (p : Part) (info : HideInfo) (x : Site) (y : Symbols),
    ∃ j : Job, j ∈ (p.makeJob info x y).jobs ∧ j.info = info ∧ j.symbols = y ∧
      j.strikeRow = x.row + BitVec.ofNat 32 p.setup.guarded.lineOffset ∧
      j.target = x.col + (p.setup.guarded.sw - 1) / 2 ∧
      (p.makeJob info x y).jobs.length = p.jobs.length + 1 ∧ (p.makeJob info x y).recorder = p.recorder)

/-- The scheduler's response to an increment (R117, R120 to R122, R124). A reached current job in QUEUED or PREPARING leaves as
MISSED(NOT_READY) and is withdrawn from a PREPARING head; an ARMED one becomes STRIKING and the head strikes for it; a STRIKING one
is left alone. Then the waiting jobs reached leave as MISSED(PASSED) in queue order, the others stay in order, and the next job may
be named. It is stated of rowPass (some 0), a pass left off right after its increment: that form is the model's cut of the pass (log
entry 1). -/
def Obligations.IncrementSettlesTheJobs : Prop :=
  ∀ (s : State) (r : CondRow) (rest : List CondRow), s.part.tracker.pass = none → s.part.intake.queue = r :: rest →
    let row := s.part.tracker.rowIndex + 1
    let reached := fun j : Job => (row - j.strikeRow).toNat < 2147483648
    let queued := fun j : Job => { j with state := JobState.queued }
    let stay := s.part.sched.waiting.filter (fun j => !decide (reached j))
    let gone := fun j : Job => reached j ∧ (j.state = .queued ∨ j.state = .preparing)
    let late := fun j : Job => Record.hide j.info (.missed .notReady) (some j.strikeRow)
    let passed := (s.part.sched.waiting.filter (fun j => decide (reached j))).map
      (fun j => Record.hide j.info (.missed .passed) (some j.strikeRow))
    let records := fun (t : State) (l : List Record) => s.part.recorder.outgoing.length + l.length ≤ 8 →
      t.part.recorder = { s.part.recorder with outgoing := s.part.recorder.outgoing ++ l }
    ∃ t, exec (.rowPass (some 0)) s = .next t ∧ t.path = s.path ∧
      (∀ j ∈ t.part.sched.waiting, ¬ reached j) ∧
      (s.part.sched.current = none → t.part.jobs.map queued = stay.map queued ∧ records t passed) ∧
      (∀ j, s.part.sched.current = some j →
        (gone j → t.part.jobs.map queued = stay.map queued ∧ records t (late j :: passed)) ∧
        (¬ gone j → t.part.sched.current.map queued = some (queued j) ∧ t.part.sched.waiting = stay ∧ records t passed) ∧
        (j.state = .striking → t.part.sched.current = some j ∧ t.part.head = s.part.head) ∧
        (gone j → j.state = .queued → s.part.head.state = .homing →
          t.part.head = s.part.head ∧ t.part.sched.current = stay.head? ∧ t.part.sched.waiting = stay.tail) ∧
        (gone j → j.state = .preparing → s.part.head.state = .preparing → s.part.belt.present ≠ .parked →
          (stay = [] → t.part.head.state = .ready ∧ t.part.head.inHand = none) ∧
          (∀ w ws, stay = w :: ws → w.state = .queued →
            t.part.head.state = .preparing ∧ t.part.sched.current = some { w with state := .preparing } ∧
            t.part.sched.waiting = ws ∧
            t.part.head.inHand = some { number := w.info.number, target := w.target, symbols := w.symbols })) ∧
        (gone j → j.state = .preparing → s.part.head.state = .preparing → s.part.belt.present = .parked →
          t.part.head.state = .parking ∧ t.part.head.inHand = none ∧ t.part.sched.current = none) ∧
        (reached j → j.state = .armed → s.part.head.state = .armed →
          s.part.head.inHand.map InHand.number = some j.info.number →
          t.part.sched.current = some { j with state := .striking } ∧ t.part.head.state = .striking ∧
          t.part.head.window = 0 ∧
          (s.part.head.slots.length = 6 → (t.part.head.slots.getD 5 (Slot.powerOn .safe)).held = .strike)))

/-! ### The stamp head link (chapter 7) -/

/-- FRAME_BOUNDARY (R132, R134, R135): a frame is sent, with the held words latched and slots 6 and 7 undriven, unless the belt is
PARKED and no held word differs from the one last sent. The command words (11.6): the code in bits 15:12, the operand below. -/
def Obligations.FrameBoundary : Prop :=
  (let word := fun (code : BitVec 4) (operand : Nat) => code ++ BitVec.ofNat 12 operand
   SlotCmd.hold.word = word 0 0 ∧ (∀ n, n < 4096 → (SlotCmd.goto n).word = word 1 n) ∧
   (∀ n, n < 4096 → (SlotCmd.set n).word = word 1 n) ∧ SlotCmd.home.word = word 2 0 ∧ SlotCmd.park.word = word 3 0 ∧
   SlotCmd.safe.word = word 0 0 ∧ SlotCmd.arm.word = word 1 0 ∧ SlotCmd.strike.word = word 2 0) ∧
  ∀ s : State, s.part.head.frame = none →
    let parked := decide (s.part.belt.present = .parked)
    ((parked = false ∨ ∃ x ∈ s.part.head.slots, x.held ≠ x.lastSent) →
      exec .frameBoundary s = .next { s with
        part.head.framePeriod := s.part.setup.unguarded.framePeriod
        part.head.gated := parked
        part.head.frame := some
          { latched := s.part.head.slots.map Slot.held
            htx := s.part.head.slots.map (fun x => some x.held.word) ++ [none, none] }
        part.head.slots := s.part.head.slots.map (fun x => { x with lastSent := x.held }) }) ∧
    (parked = true → (∀ x ∈ s.part.head.slots, x.held = x.lastSent) →
      exec .frameBoundary s = .next { s with
        part.head.framePeriod := s.part.setup.unguarded.framePeriod
        part.head.gated := true })

/-- The judging of one status word outside FAULTED (R138 to R140): ABSENT, the parity run and its third error, a good word and what
its kind bits say; MODULE, MISMATCH and COUNT, or no fault. That MISMATCH is judged only of a frame that carried the slot's held
command is the model's reading (log entry 18), and so is that in STRIKING without a base any count is a COUNT fault (log entry 30). -/
def Obligations.JudgingAStatusWord : Prop :=
  ∀ (i : Nat) (st : HeadState) (base : Option (BitVec 12)) (s : Slot) (latched : SlotCmd) (w : BitVec 16), st ≠ .faulted →
    let j := judgeSlot i st base s latched w
    let ones := ((List.range 16).filter (fun k => w.getLsbD k)).length
    j.slot.held = s.held ∧ j.slot.lastSent = s.lastSent ∧
    (w = 0xFFFF → j.fault = some .absent ∧ j.slot = { s with run := 0 } ∧ j.status = none) ∧
    (w ≠ 0xFFFF → ones % 2 = 0 → s.run < 2 → j.fault = none ∧ j.slot = { s with run := s.run + 1 }) ∧
    (w ≠ 0xFFFF → ones % 2 = 0 → s.run = 2 → j.fault = some .parity ∧ j.slot = { s with run := 0 }) ∧
    (ones % 2 = 1 →
      j.status = some (decodeStatus w) ∧ j.slot.run = 0 ∧
      (latched = s.held → j.slot.latest = decodeStatus w) ∧ (latched ≠ s.held → j.slot.latest = s.latest)) ∧
    (∀ c, ones % 2 = 1 → decodeStatus w = .fault c → j.fault = some (.module c)) ∧
    (ones % 2 = 1 → decodeStatus w = .busy → j.fault = none) ∧
    (∀ v, ones % 2 = 1 → decodeStatus w = .idle v →
      let target : Option (BitVec 12) := match s.held with
        | .goto col => some (BitVec.ofNat 12 col)
        | .set symbol => some (BitVec.ofNat 12 symbol)
        | .home => some (if i = 0 then 0xF00 else 10)
        | .park => some 0xF01
        | .hold | .safe | .arm | .strike => none
      let mismatch := latched = s.held ∧ ∃ t, target = some t ∧ t ≠ v
      let count := i = 5 ∧ st = .striking ∧ ∀ n, base = some n → v ≠ n ∧ v ≠ n + 1
      (mismatch → j.fault = some .mismatch) ∧ (¬ mismatch → count → j.fault = some .count) ∧
      (¬ mismatch → ¬ count → j.fault = none)) ∧
    decodeStatus w = (match (w.extractLsb' 12 3).toNat with
      | 0 => .idle (w.extractLsb' 0 12)
      | 1 => .busy
      | 2 => .fault (w.extractLsb' 0 12)
      | _ => .fault 4095)

/-- FRAME_END that finds a fault condition (R127, R136, R141), in every state that acts on one: the head enters FAULTED once, with
the safe commands held, one more link error, one HEAD_FAULT event for the lowest slot, and every job MISSED(HEAD_FAULT), the current
one first. That the event stands before the MISSED records is the model's reading (log entry 21). (In the frame that ends the strike
window the code may be another, log entry 13.) -/
def Obligations.FaultEndsTheJobs : Prop :=
  ∀ (s : State) (f : Frame) (a b c d e h : BitVec 16) (i : Nat) (code : FaultCode),
    s.part.head.frame = some f → s.part.head.slots.length = 6 → f.latched.length = 6 →
    s.part.head.state ≠ .unknown → s.part.head.state ≠ .faulted →
    firstFault 0 (judgeAll s.part.head.state s.part.head.hammerCount 0 s.part.head.slots f.latched [a, b, c, d, e, h]) =
      some (i, code) →
    ∃ t, exec (.frameEnd a b c d e h) s = .next t ∧ t.path = s.path ∧ t.part.head.state = .faulted ∧
      t.part.head.frame = none ∧ t.part.head.inHand = none ∧ t.part.jobs = [] ∧
      t.part.head.errors = s.part.head.errors + 1 ∧
      t.part.head.slots.map Slot.held = [.hold, .hold, .hold, .hold, .hold, .safe] ∧
      t.part.belt = s.part.belt ∧ t.part.tracker.table = s.part.tracker.table ∧
      wLinkErrors ∈ t.part.dirty ∧ wBelt ∈ t.part.dirty ∧
      ((s.part.head.state ≠ .striking ∨ s.part.head.window < 15) → s.part.lots.closing = none →
        s.part.recorder.outgoing.length + s.part.jobs.length < 8 →
        (s.part.recorder.outgoing ++ .event .headFault s.part.tracker.rowIndex (headFaultArg i code) ::
          s.part.jobs.map (fun j => .hide j.info (.missed .headFault) (some j.strikeRow))) <+: t.part.recorder.outgoing)

/-- NO_STRIKE (R137, R141, R146). The end of the STRIKE frame returns the hammer to ARM; of the frames after it that bring neither a
fault condition nor the confirmation the first 15 are counted and the 16th sends the head to FAULTED for slot 5. The command
NO_STRIKE stands for the window gone by: in STRIKING it acts whatever the count stands at, which is the model's choice (log entry 4);
elsewhere no strike window runs. The STRIKE frame is told by its latched and held words (log entry 29), and the HEAD_FAULT event stands
before the jobs' records (log entry 21): both are the model's reading. -/
def Obligations.NoStrike : Prop :=
  (∀ (s : State) (f : Frame) (a b c d e h : BitVec 16),
    s.part.head.frame = some f → s.part.head.state = .striking → s.part.head.slots.length = 6 → f.latched.length = 6 →
    firstFault 0 (judgeAll .striking s.part.head.hammerCount 0 s.part.head.slots f.latched [a, b, c, d, e, h]) = none →
    ∃ t, exec (.frameEnd a b c d e h) s = .next t ∧ t.path = s.path ∧ t.part.head.frame = none ∧
      t.part.belt = s.part.belt ∧
      (f.latched[5]? = some .strike →
        t.part.head.state = .striking ∧ t.part.head.window = s.part.head.window ∧ t.part.sched = s.part.sched ∧
        (t.part.head.slots.getD 5 (Slot.powerOn .safe)).held = .arm) ∧
      (f.latched[5]? ≠ some .strike → (s.part.head.slots.getD 5 (Slot.powerOn .safe)).held ≠ .strike →
        ¬ (parityGood h = true ∧ ∃ n, s.part.head.hammerCount = some n ∧ decodeStatus h = .idle (n + 1)) →
        (s.part.head.window < 15 →
          t.part.head.state = .striking ∧ t.part.head.window = s.part.head.window + 1 ∧ t.part.sched = s.part.sched ∧
          t.part.recorder = s.part.recorder) ∧
        (15 ≤ s.part.head.window →
          t.part.head.state = .faulted ∧ t.part.head.inHand = none ∧ t.part.jobs = [] ∧
          t.part.head.errors = s.part.head.errors + 1 ∧
          t.part.head.slots.map Slot.held = [.hold, .hold, .hold, .hold, .hold, .safe] ∧
          (s.part.lots.closing = none → s.part.recorder.outgoing.length < 8 →
            (s.part.recorder.outgoing ++ [.event .headFault s.part.tracker.rowIndex (headFaultArg 5 .noStrike)]) <+:
              t.part.recorder.outgoing)))) ∧
  ∀ s : State,
    (s.part.head.state ≠ .striking → exec .noStrike s = .next s) ∧
    (s.part.head.state = .striking → s.part.head.slots.length = 6 →
      ∃ t, exec .noStrike s = .next t ∧ t.path = s.path ∧ t.part.head.state = .faulted ∧ t.part.head.inHand = none ∧
        t.part.jobs = [] ∧ t.part.head.errors = s.part.head.errors + 1 ∧
        t.part.head.slots.map Slot.held = [.hold, .hold, .hold, .hold, .hold, .safe] ∧ t.part.belt = s.part.belt ∧
        (s.part.recorder.outgoing.length < 8 → s.part.jobs = [] → s.part.setup.snapshot = none →
          t.part.recorder.outgoing = s.part.recorder.outgoing ++
            [.event .headFault s.part.tracker.rowIndex (headFaultArg 5 .noStrike)]))

/-- FRAME_END in the states that wait for the modules, all IDLE at their targets. HOMING (R143, R144): homing is complete, the head
READY and with a job to do PREPARING for it, or PARKING with the belt PARKED, a current job returned to waiting (R128). PREPARING:
the head is ARMED and so is its job (R145). PARKING: HEAD_PARKED (R148). A frame end without a frame has nothing to judge (log entry
26). -/
def Obligations.HomingCompletes : Prop :=
  ∀ (s : State) (a b c d e h : BitVec 16) (v : BitVec 12),
    (s.part.head.frame = none → exec (.frameEnd a b c d e h) s = .next s) ∧
    ∀ f, s.part.head.frame = some f → s.part.head.slots.map Slot.held = f.latched →
      (∀ w ∈ [a, b, c, d, e, h], parityGood w = true ∧ w ≠ 0xFFFF) → decodeStatus h = .idle v →
      ∃ t, exec (.frameEnd a b c d e h) s = .next t ∧ t.path = s.path ∧
        (s.part.head.state = .homing → f.latched = [.home, .home, .home, .home, .home, .safe] →
          decodeStatus a = .idle 0xF00 → (∀ w ∈ [b, c, d, e], decodeStatus w = .idle 10) →
          t.part.head.frame = none ∧
          t.part.head.hammerCount = some v ∧ t.part.head.errors = s.part.head.errors ∧
          t.part.recorder = s.part.recorder ∧ t.part.belt = s.part.belt ∧
          (s.part.jobs = [] → t.part.jobs = [] ∧ (s.part.belt.present ≠ .parked → t.part.head.state = .ready)) ∧
          (∀ j rest, s.part.belt.present ≠ .parked → j.state = .queued →
            ((s.part.sched.current = some j ∧ s.part.sched.waiting = rest) ∨
              (s.part.sched.current = none ∧ s.part.sched.waiting = j :: rest)) →
            t.part.head.state = .preparing ∧ t.part.sched.current = some { j with state := .preparing } ∧
            t.part.sched.waiting = rest ∧
            t.part.head.inHand = some { number := j.info.number, target := j.target, symbols := j.symbols } ∧
            t.part.head.slots.map Slot.held = [.goto j.target, .set j.symbols.w1, .set j.symbols.w2, .set j.symbols.w3,
              .set j.symbols.w4, .safe]) ∧
          (∀ j, s.part.belt.present = .parked → s.part.sched.current = some j → j.state ≠ .striking →
            t.part.sched.current = none ∧ t.part.sched.waiting = (s.part.placeJob j).sched.waiting) ∧
          (s.part.belt.present = .parked → t.part.head.state = .parking ∧
            t.part.head.slots.map Slot.held = [.park, .set 10, .set 10, .set 10, .set 10, .safe])) ∧
        (∀ k : InHand, s.part.head.state = .preparing → s.part.head.inHand = some k →
          f.latched = [.goto k.target, .set k.symbols.w1, .set k.symbols.w2, .set k.symbols.w3, .set k.symbols.w4, .safe] →
          decodeStatus a = .idle (BitVec.ofNat 12 k.target) → decodeStatus b = .idle (BitVec.ofNat 12 k.symbols.w1) →
          decodeStatus c = .idle (BitVec.ofNat 12 k.symbols.w2) → decodeStatus d = .idle (BitVec.ofNat 12 k.symbols.w3) →
          decodeStatus e = .idle (BitVec.ofNat 12 k.symbols.w4) →
          t.part.head.frame = none ∧ t.part.head.state = .armed ∧ t.part.head.inHand = some k ∧
          t.part.head.hammerCount = some v ∧
          t.part.sched.current = s.part.sched.current.map (fun j => { j with state := .armed }) ∧
          t.part.sched.waiting = s.part.sched.waiting ∧ t.part.recorder = s.part.recorder ∧
          t.part.head.slots.map Slot.held = f.latched.set 5 .arm ∧ wBelt ∈ t.part.dirty) ∧
        (s.part.head.state = .parking → f.latched = [.park, .set 10, .set 10, .set 10, .set 10, .safe] →
          decodeStatus a = .idle 0xF01 → (∀ w ∈ [b, c, d, e], decodeStatus w = .idle 10) →
          t.part.head.frame = none ∧ t.part.head.state = .headParked ∧ t.part.head.slots.map Slot.held = f.latched ∧
          t.part.sched = s.part.sched ∧ t.part.recorder = s.part.recorder ∧ wBelt ∈ t.part.dirty)

/-- FRAME_END that confirms a strike (R117, R123, R144, R146), whatever the other five words say short of a fault condition: the
hammer's count has gone up by one, the job is STAMPED and its record released, the head is READY and with a job waiting PREPARING for
it, or PARKING with the belt PARKED. -/
def Obligations.StrikeIsConfirmed : Prop :=
  ∀ (s : State) (f : Frame) (j : Job) (a b c d e h : BitVec 16) (base : BitVec 12),
    s.part.head.frame = some f → s.part.head.state = .striking → s.part.head.slots.length = 6 → f.latched.length = 6 →
    f.latched[5]? = some .arm → (s.part.head.slots[5]?.map Slot.held) = some .arm →
    s.part.head.hammerCount = some base →
    firstFault 0 (judgeAll .striking (some base) 0 s.part.head.slots f.latched [a, b, c, d, e, h]) = none →
    parityGood h = true → decodeStatus h = .idle (base + 1) →
    s.part.sched.current = some j → j.state = .striking →
    s.part.setup.snapshot = none → s.part.lots.closing = none → s.part.recorder.outgoing.length < 8 →
    ∃ t, exec (.frameEnd a b c d e h) s = .next t ∧ t.path = s.path ∧ t.part.head.frame = none ∧
      t.part.head.hammerCount = some (base + 1) ∧
      t.part.recorder.outgoing = s.part.recorder.outgoing ++ [.hide j.info .stamped (some j.strikeRow)] ∧
      t.part.head.errors = s.part.head.errors ∧ t.part.belt = s.part.belt ∧
      (s.part.belt.present ≠ .parked → s.part.sched.waiting = [] →
        t.part.head.state = .ready ∧ t.part.head.inHand = none ∧ t.part.jobs = []) ∧
      (∀ w rest, s.part.belt.present ≠ .parked → s.part.sched.waiting = w :: rest → w.state = .queued →
        t.part.head.state = .preparing ∧ t.part.sched.current = some { w with state := .preparing } ∧
        t.part.sched.waiting = rest ∧
        t.part.head.inHand = some { number := w.info.number, target := w.target, symbols := w.symbols }) ∧
      (s.part.belt.present = .parked →
        t.part.head.state = .parking ∧ t.part.head.inHand = none ∧ t.part.jobs = s.part.sched.waiting)

/-- HEAD_RESET (R117, R118, R143, R150), in every head state: HOMING, the home commands held, parity runs 0, no job in hand; a STRIKING
job leaves as MISSED(HEAD_FAULT) with its record, any other stays; with none current the next one is named. -/
def Obligations.HeadReset : Prop :=
  ∀ (tag : Half) (s : State), s.part.head.slots.length = 6 →
    ∃ t, exec (.headReset tag) s = .next t ∧ t.path = s.path ∧ t.part.head.state = .homing ∧ t.part.head.inHand = none ∧
      t.part.head.slots.map Slot.held = [.home, .home, .home, .home, .home, .safe] ∧
      (∀ x ∈ t.part.head.slots, x.run = 0) ∧ t.part.head.frame = s.part.head.frame ∧
      t.part.head.errors = s.part.head.errors ∧ t.part.belt = s.part.belt ∧
      t.part.setup.result = { tag := tag, code := 5, result := .done, offset := 0 } ∧
      (∀ j, s.part.sched.current = some j → j.state ≠ .striking →
        t.part.sched.current = some { j with state := .queued } ∧ t.part.sched.waiting = s.part.sched.waiting ∧
        t.part.recorder = s.part.recorder) ∧
      (s.part.sched.current = none →
        t.part.sched.current = s.part.sched.waiting.head? ∧ t.part.sched.waiting = s.part.sched.waiting.tail ∧
        t.part.recorder = s.part.recorder) ∧
      (∀ j, s.part.sched.current = some j → j.state = .striking →
        t.part.sched.current = s.part.sched.waiting.head? ∧ t.part.sched.waiting = s.part.sched.waiting.tail ∧
        (s.part.lots.closing = none → s.part.recorder.outgoing.length < 8 →
          (s.part.recorder.outgoing ++ [.hide j.info (.missed .headFault) (some j.strikeRow)]) <+: t.part.recorder.outgoing))

/-! ### Belt activity (chapter 8) -/

/-- The commands that move the belt without a header (R152 to R158): halt-timer expiry, park-timer expiry, PARK_NOW, each in the
state that takes it and in the others, and a COMMIT of another length, which expires a running timer that has reached it (R155). A
halt timer that a restart signal has just started does not expire; with the expiry first the signal finds HALTED (R156). The park
order returns a current job that is not STRIKING to waiting (R128). That an elapsed time of 0 is read as just started, and that the
two expiry commands otherwise act whatever the timer stands at, is the model's choice (log entry 4). -/
def Obligations.BeltExpiries : Prop :=
  (∀ (tag : Half) (s : State), firstOutOfRange s.part.setup.staged = none →
    let halt := 1000 * ((s.part.setup.staged.getD 45 0).extractLsb' 0 13).toNat
    let park := 1000000 * ((s.part.setup.staged.getD 46 0).extractLsb' 0 12).toNat
    ∃ t, exec (.commit tag) s = .next t ∧
      (∀ e, s.part.belt.present = .running → s.part.belt.halt = some e →
        halt ≠ 1000 * s.part.setup.unguarded.haltMs → halt ≤ e →
        t.part.belt = { present := .halted, last := some .running, halt := none, park := some 0 }) ∧
      (∀ e, s.part.belt.present = .halted → s.part.belt.park = some e →
        park ≠ 1000000 * s.part.setup.unguarded.parkS → park ≤ e →
        t.part.belt = { s.part.belt with present := .parked, last := some .halted, park := none } ∧
        (s.part.head.state = .ready ∨ s.part.head.state = .preparing ∨ s.part.head.state = .armed →
          t.part.head.state = .parking)) ∧
      ((halt = 1000 * s.part.setup.unguarded.haltMs ∨ ∀ e, s.part.belt.halt = some e → e < halt) →
        (park = 1000000 * s.part.setup.unguarded.parkS ∨ ∀ e, s.part.belt.park = some e → e < park) →
        t.part.belt = s.part.belt)) ∧
  ∀ (tag : Half) (s : State),
    (∀ e, s.part.belt.present = .running → s.part.belt.halt = some e → 0 < e → exec .haltTimerExpiry s = .next { s with
      part := ({ s.part with
        belt := { present := .halted, last := some .running, halt := none, park := some 0 } } : Part).mark wBelt }) ∧
    (s.part.belt.present ≠ .running ∨ s.part.belt.halt = some 0 ∨ s.part.belt.halt = none →
      exec .haltTimerExpiry s = .next s) ∧
    exec .haltTimerExpiry { s with part := s.part.restartSignal } = .next { s with part := s.part.restartSignal } ∧
    (∀ e, s.part.belt.present = .running → s.part.belt.halt = some e → 0 < e → ∃ t, exec .haltTimerExpiry s = .next t ∧
      t.part.restartSignal.belt = { present := .running, last := some .halted, halt := some 0, park := none } ∧
      t.part.restartSignal.head = s.part.head ∧ t.part.restartSignal.sched = s.part.sched) ∧
    (s.part.belt.present = .halted →
      ∃ t, exec .parkTimerExpiry s = .next t ∧ t.path = s.path ∧
        t.part.belt = { s.part.belt with present := .parked, last := some .halted, park := none } ∧
        wBelt ∈ t.part.dirty ∧
        (s.part.head.state = .ready ∨ s.part.head.state = .preparing ∨ s.part.head.state = .armed →
          t.part.head.state = .parking ∧ t.part.head.inHand = none ∧ t.part.recorder = s.part.recorder ∧
          (s.part.head.slots.length = 6 →
            t.part.head.slots.map Slot.held = [.park, .set 10, .set 10, .set 10, .set 10, .safe]) ∧
          (∀ j, s.part.sched.current = some j → j.state ≠ .striking →
            t.part.sched.current = none ∧ t.part.sched.waiting = (s.part.placeJob j).sched.waiting) ∧
          ((s.part.sched.current = none ∨ ∃ j, s.part.sched.current = some j ∧ j.state = .striking) →
            t.part.sched = s.part.sched)) ∧
        (s.part.head.state ≠ .ready → s.part.head.state ≠ .preparing → s.part.head.state ≠ .armed →
          t.part.head = s.part.head ∧ t.part.sched = s.part.sched) ∧
        exec (.parkNow tag) s = .next { t with part := t.part.answer tag 6 .done }) ∧
    (s.part.belt.present ≠ .halted → exec .parkTimerExpiry s = .next s ∧
      exec (.parkNow tag) s = .next { s with part := s.part.answer tag 6 .state })

/-- A restart signal by belt state (R149, R153, R154, R159): the belt runs, its halt timer afresh; from PARKED the head is woken. -/
def Obligations.RestartSignal : Prop :=
  ∀ p : Part,
    let q := p.restartSignal
    q.belt.present = .running ∧ q.belt.halt = some 0 ∧
    (p.belt.present = .running → q = { p with belt.halt := some 0 }) ∧
    (p.belt.present ≠ .running → q.belt.last = some p.belt.present ∧ wBelt ∈ q.dirty) ∧
    (p.belt.present = .halted → q.belt.park = none ∧ q.head = p.head ∧ q.sched = p.sched) ∧
    (p.belt.present = .parked → q.belt.park = p.belt.park) ∧
    (p.belt.present = .parked → (p.head.state = .unknown ∨ p.head.state = .parking ∨ p.head.state = .headParked) →
      q.head.state = .homing) ∧
    (p.belt.present = .parked → p.head.state ≠ .unknown → p.head.state ≠ .parking → p.head.state ≠ .headParked →
      q.head = p.head)

/-! ### The memory path (chapter 9) -/

/-- An upstream transaction on a free port that calls for no fairness word and no drain (R164, R165, R168, R173). A write: every
enabled byte of every beat stands in the RAM at the beat's address, every other byte is as before. A read: the words come back on LD,
the RAM stays. Queued part words stay. The beats are handed over in order; a write beat to row intake, the mark windows and the setup
page, in that order (log entry 16), each doing what the block's own command does, a read beat to the mark windows alone, and none with
no lane enabled. That it may leave off after some beats, stay on the port, and go on later as if it had not is the model's choice (log
entry 7). -/
def Obligations.UpstreamWrite : Prop :=
  (∀ (x : Transaction) (pause : Option Nat) (s : State), 1 ≤ x.beats.length → x.beats.length ≤ 8 →
    s.path.port = none → (8 ≤ s.path.queue.length → s.path.fairness ≠ 8) →
    (∀ w ∈ s.path.queue, ∀ k, k < x.beats.length → w.addr ≠ beatAddr x.start k) →
    let n := match pause with
      | none => x.beats.length
      | some m => min x.beats.length m
    let port := if n < x.beats.length then some (PortTxn.upstream x n) else none
    (x.write = true → s.ramOk →
      ∃ t, exec (.upstreamTransaction (some x) pause) s = .next t ∧ t.pending = s.pending ∧
        t.path.port = port ∧ t.path.queue = s.path.queue ∧ t.path.base = s.path.base ∧ t.path.turn = s.path.turn ∧
        t.path.lineData = s.path.lineData ∧ t.path.fairness = min 8 (s.path.fairness + 1) ∧
        t.part = (x.beats.take n).zipIdx.foldl (fun p b =>
          p.writeBeat s.path.base (beatAddr x.start b.2) b.1.enables b.1.data) s.part ∧
        (∀ (k : Nat) (b : Beat) (l : Nat), k < n → x.beats[k]? = some b → l < 4 → b.enables.getLsbD l = true →
          t.path.ram.read (laneAddr (beatAddr x.start k) l) = laneByte b.data l) ∧
        (∀ a, (∀ (k : Nat) (b : Beat) (l : Nat), k < n → x.beats[k]? = some b → l < 4 → b.enables.getLsbD l = true →
            laneAddr (beatAddr x.start k) l ≠ a) →
          t.path.ram.read a = s.path.ram.read a)) ∧
    (x.write = false →
      ∃ t, exec (.upstreamTransaction (some x) pause) s = .next t ∧ t.pending = s.pending ∧
        t.path = { s.path with
          port := port
          fairness := min 8 (s.path.fairness + 1)
          lineData := (List.range n).map (fun k => s.path.ram.readWord (beatAddr x.start k)) } ∧
        t.part = (x.beats.take n).zipIdx.foldl (fun p b =>
          p.readBeat (beatAddr x.start b.2) b.1.enables (s.path.ram.readWord (beatAddr x.start b.2))) s.part)) ∧
  (∀ (x : Transaction) (n : Nat) (pause : Option Nat) (s t : State),
    exec (.upstreamTransaction (some x) (some n)) s = .next t → n < x.beats.length →
    exec (.upstreamTransaction none pause) t = exec (.upstreamTransaction (some x) (pause.map (n + ·))) s) ∧
  (∀ (start : BitVec 24) (k : Nat),
    (beatAddr start k).toNat = start.toNat / 32 * 32 + (start.toNat / 4 + k) % 8 * 4) ∧
  ∀ (s : State) (addr : BitVec 24) (en : Lanes) (data : Word),
    (en = 0 → s.part.writeBeat s.path.base addr en data = s.part ∧ s.part.readBeat addr en data = s.part) ∧
    (en ≠ 0 →
      let a := addr.toNat
      let ring := s.part.setup.guarded.rowRingBase
      let slot := BitVec.ofNat 6 ((a - ring) / 256)
      let offset := BitVec.ofNat 6 ((a - ring) % 256 / 4)
      let inRing := ring ≤ a ∧ a < ring + 256 * s.part.setup.guarded.slotCount
      let inPage := s.path.base ≤ a ∧ a < s.path.base + 512
      let word := (a - s.path.base) / 4
      exec (.markWindowMatch false (addr.extractLsb' 2 22) en data) s =
        .next { s with part := s.part.readBeat addr en data } ∧
      ∃ t1 t2 t3 : State,
        (inRing → offset = 0 → exec (.headerWrite slot en data) s = .next t1) ∧
        (inRing → offset ≠ 0 → exec (.beamWordWrite slot offset en data) s = .next t1) ∧ (¬ inRing → t1 = s) ∧
        exec (.markWindowMatch true (addr.extractLsb' 2 22) en data) t1 = .next t2 ∧
        (inPage → word = 76 → exec (.consumerIndexWrite en data) t2 = .next t3) ∧
        (inPage → word < 80 → word ≠ 76 → exec (.setupWordWrite (BitVec.ofNat 7 word) en data) t2 = .next t3) ∧
        (inPage → 80 ≤ word → exec (.statusBlockWrite (BitVec.ofNat 6 (word - 80))) t2 = .next t3) ∧ (¬ inPage → t3 = t2) ∧
        { s with part := s.part.writeBeat s.path.base addr en data } = t3)

/-- What comes before an upstream transaction, read or write, single beat or burst: what the port is at ends first (R164); with 8 or
more words queued and the fairness count 8 the oldest word is written (R173); and while a queued word is at an address of the
transaction the oldest is written (R172), each as POSTED_WORD_WRITE and PART_WORD_COMPLETE write it. So a read of a word that part words
wait for returns the newest (R171). The fairness word stands before the drain test (log entry 17), and so does a producer's word that
takes a freed place (log entry 40). -/
def Obligations.ReadReturnsTheNewestPartWord : Prop :=
  (∀ (x : Transaction) (pause : Option Nat) (s : State),
    let go := exec (.upstreamTransaction (some x) pause)
    let uses := fun w : Posted => ∃ k, k < x.beats.length ∧ w.addr = beatAddr x.start k
    (∀ w u, s.path.port = some (.partWord w) → exec .partWordComplete s = .next u → go s = go u) ∧
    (∀ y k u, s.path.port = some (.upstream y k) → exec (.upstreamTransaction none none) s = .next u → go s = go u) ∧
    (∀ u v, s.path.port = none → exec .postedWordWrite s = .next u → exec .partWordComplete u = .next v →
      (8 ≤ s.path.queue.length → s.path.fairness = 8 → go s = go v) ∧
      ((8 ≤ s.path.queue.length → s.path.fairness ≠ 8) → (∃ w ∈ s.path.queue, uses w) →
        (∀ w ∈ v.path.queue.drop 15, ¬ uses w) → go s = go v))) ∧
  ∀ (addr : BitVec 24) (en : Lanes) (d : Word) (s : State) (pre post : List Posted) (w : Posted), s.ramOk →
    s.path.port = none → s.path.queue = pre ++ w :: post → s.path.queue.length < 8 → addr.toNat % 4 = 0 →
    w.addr = addr → (∀ v ∈ post, v.addr ≠ addr) →
    let x : Transaction := { write := false, start := addr, beats := [{ enables := en, data := d }] }
    ∃ t, exec (.upstreamTransaction (some x) none) s = .next t ∧ t.path.port = none ∧ t.path.queue = post ∧
      t.path.lineData = [w.data] ∧ t.path.fairness = 1 ∧ t.path.ram.readWord addr = w.data

/-- The posted write queue on a free port (R171 to R173): the oldest word goes to the port, then stands in the RAM with all four
bytes, every other byte as before. A place freed with all 16 taken goes to a producer that waits, the turn's if both do; which
producer waits is read off the dirty set and the record in progress, which is the model's reading (log entry 28). -/
def Obligations.PostedWordsInOrder : Prop :=
  ∀ s : State,
    (s.path.port.isSome = true ∨ s.path.queue = [] → exec .postedWordWrite s = .next s) ∧
    (∀ w rest, s.path.port = none → s.path.queue = w :: rest →
      exec .postedWordWrite s = .next { s with
        path.port := some (.partWord w), path.queue := rest, path.fairness := 0 }) ∧
    ((∀ w, s.path.port ≠ some (.partWord w)) → exec .partWordComplete s = .next s) ∧
    (∀ w, s.path.port = some (.partWord w) → s.ramOk →
      ∃ t, exec .partWordComplete s = .next t ∧ t.path.port = none ∧ t.path.fairness = s.path.fairness ∧
        (∀ l, l < 4 → t.path.ram.read (laneAddr w.addr l) = laneByte w.data l) ∧
        (∀ a, (∀ l, l < 4 → laneAddr w.addr l ≠ a) → t.path.ram.read a = s.path.ram.read a) ∧
        (s.path.queue.length < 15 → t.part = s.part ∧ t.path.queue = s.path.queue ∧ t.path.turn = s.path.turn) ∧
        (s.path.queue.length = 15 → s.part.dirty = [] → s.part.recorder.inProgress = none →
          t.part = s.part ∧ t.path.queue = s.path.queue ∧ t.path.turn = s.path.turn) ∧
        (∀ k rest, s.path.queue.length = 15 → s.part.dirty = k :: rest →
          (s.part.recorder.inProgress = none ∨ s.path.turn = .statusWriter) →
          t.path.queue = s.path.queue ++
            [{ addr := BitVec.ofNat 24 (s.path.base + 0x140 + 4 * k), data := s.part.statusWord k }] ∧
          t.part.dirty = rest ∧ t.path.turn = .recordWriter) ∧
        (∀ o, s.path.queue.length = 15 → s.part.recorder.inProgress = some o →
          (s.part.dirty = [] ∨ s.path.turn = .recordWriter) →
          t.path.turn = .statusWriter ∧
          (o.next < 16 →
            t.path.queue = s.path.queue ++
              [{ addr := BitVec.ofNat 24 (s.part.setup.unguarded.ringBase + 64 * s.part.recorder.p + 4 * o.next)
                 data := o.record.words.getD o.next 0 }] ∧
            t.part = { s.part with recorder.inProgress := some { o with next := o.next + 1 } }) ∧
          (16 ≤ o.next →
            let n := (s.part.recorder.p + 1) % s.part.setup.unguarded.ringSize
            t.path.queue = s.path.queue ++
              [{ addr := BitVec.ofNat 24 (s.path.base + 0x184), data := BitVec.ofNat 32 n }] ∧
            t.part = ({ s.part with recorder.p := n, recorder.inProgress := none } : Part).mark wProducer)))

/-! ### The setup page (chapter 10) -/

/-- The writes to the setup page (R170, R175 to R177): the enabled lanes join the staged word or the held argument; a status word
becomes dirty; a word without a field is left alone; the command word runs the command its code names, with all four lanes enabled.
The model's choice (log entry 6): SETUP_WORD_WRITE at words 77, 78 and 79 acts as those words' own commands, at word 76 it leaves the
record writer alone. -/
def Obligations.PageWrites : Prop :=
  ∀ (en : Lanes) (data : Word) (s : State),
    (∀ k : BitVec 7, k.toNat < 48 →
      exec (.setupWordWrite k en data) s = .next { s with
        part.setup.staged :=
          s.part.setup.staged.set k.toNat (mergeLanes (s.part.setup.staged.getD k.toNat 0) data en) }) ∧
    (∀ k : BitVec 7, 48 ≤ k.toNat → k.toNat < 77 → exec (.setupWordWrite k en data) s = .next s) ∧
    exec (.argumentWordWrite .one en data) s = .next { s with
      part.setup.arg1 := mergeLanes s.part.setup.arg1 data en } ∧
    exec (.argumentWordWrite .two en data) s = .next { s with
      part.setup.arg2 := mergeLanes s.part.setup.arg2 data en } ∧
    exec (.setupWordWrite 77 en data) s = exec (.argumentWordWrite .one en data) s ∧
    exec (.setupWordWrite 78 en data) s = exec (.argumentWordWrite .two en data) s ∧
    (en ≠ 0xF → exec (.setupWordWrite 79 en data) s = .next s) ∧
    (let tag : Half := data.extractLsb' 16 16
     let code : BitVec 4 := data.extractLsb' 0 4
     exec (.setupWordWrite 79 0xF data) s =
      if code = 1 then exec (.commit tag) s
      else if code = 2 then exec (.lotNext tag) s
      else if code = 3 then exec (.manualEnter tag) s
      else if code = 4 then exec (.clearSticky tag) s
      else if code = 5 then exec (.headReset tag) s
      else if code = 6 then exec (.parkNow tag) s
      else if code = 7 then exec (.restart tag) s
      else exec (.unknownCommand code tag) s) ∧
    (∀ w : BitVec 6, w.toNat < 48 →
      ∃ t, exec (.statusBlockWrite w) s = .next t ∧ t = { s with part.dirty := t.part.dirty } ∧
        ∀ k, k ∈ t.part.dirty ↔ k = w.toNat ∨ k ∈ s.part.dirty)

/-- COMMIT (R16, R20, R178 to R181). The fields of the staged copy (11.2) and the first word out of range: a ring that runs past
0xFFFFFF is charged to its base or its length, a free constant (log entry 12). RANGE applies nothing; else the unguarded fields apply
at once, and the guarded ones at once when the part is setup-quiet or as a pending snapshot when it is not, which applies at a
setup-quiet moment with COMMIT_APPLIED: none is left over by a job's outcome, a pass or a RESTART. The masks are compared over all 384
beams, the model's choice (log entry 37). -/
def Obligations.Commit : Prop :=
  (∀ ws : List Word,
    let fld := fun i lo len : Nat => ((ws.getD i 0).extractLsb' lo len).toNat
    let rowPast := fld 1 0 7 ≠ 0 ∧ 0x1000000 < fld 0 0 24 + 256 * fld 1 0 7
    let recordPast := fld 44 0 11 ≠ 0 ∧ 0x1000000 < fld 43 0 24 + 64 * fld 44 0 11
    let badWindow := fun i : Nat => 2 < fld i 24 2 ∨ 2 < fld i 28 2 ∨ fld i 0 24 % 2 ^ fld i 24 2 ≠ 0
    let bad := fun k : Nat =>
      (k = 0 ∧ (fld 0 0 24 % 256 ≠ 0 ∨ (rowPast ∧ Config.rowRingPastAtBase = true))) ∨
      (k = 1 ∧ ((fld 1 0 7 ≠ 0 ∧ (fld 1 0 7 < 4 ∨ 64 < fld 1 0 7)) ∨ (rowPast ∧ Config.rowRingPastAtBase = false))) ∨
      (k = 2 ∧ (fld 2 0 9 < 64 ∨ 384 < fld 2 0 9 ∨ fld 2 0 9 % 32 ≠ 0)) ∨
      (k = 4 ∧ fld 4 0 14 < 256) ∨
      (k = 20 ∧ (fld 20 0 15 < 1000 ∨ 20000 < fld 20 0 15)) ∨
      (k = 21 ∧ (fld 21 0 15 < 1000 ∨ 20000 < fld 21 0 15)) ∨
      (k = 22 ∧ ((ws.getD 22 0).toInt < -500 ∨ 500 < (ws.getD 22 0).toInt)) ∨
      (k = 23 ∧ (2 < fld 23 0 2 ∨ 1 < fld 23 8 2)) ∨
      (k = 24 ∧ (fld 24 0 5 < 2 ∨ 16 < fld 24 0 5 ∨ fld 24 8 5 < 2 ∨ 16 < fld 24 8 5)) ∨
      (k = 25 ∧ fld 25 0 12 < 32) ∨
      (k = 37 ∧ 999 < fld 37 0 10) ∨
      (39 ≤ k ∧ k ≤ 42 ∧ badWindow k) ∨
      (k = 43 ∧ (fld 43 0 24 % 64 ≠ 0 ∨ (recordPast ∧ Config.recordRingPastAtBase = true))) ∨
      (k = 44 ∧ ((fld 44 0 11 ≠ 0 ∧ (fld 44 0 11 < 16 ∨ 1024 < fld 44 0 11)) ∨
        (recordPast ∧ Config.recordRingPastAtBase = false))) ∨
      (k = 45 ∧ (fld 45 0 13 < 50 ∨ 5000 < fld 45 0 13)) ∨
      (k = 46 ∧ (fld 46 0 12 < 10 ∨ 3600 < fld 46 0 12)) ∨
      (k = 47 ∧ (fld 47 0 13 < 200 ∨ 5000 < fld 47 0 13 ∨ fld 47 0 13 % 100 ≠ 0))
    (firstOutOfRange ws = none ↔ ∀ k, ¬ bad k) ∧
    (∀ k, firstOutOfRange ws = some k ↔ bad k ∧ ∀ j, j < k → ¬ bad j) ∧
    (∃ mask : Beams, (∀ x, x < 384 → mask.getLsbD x = (ws.getD (5 + x / 32) 0).getLsbD (x % 32)) ∧
      Guarded.ofStaged ws = {
        rowRingBase := fld 0 0 24, slotCount := fld 1 0 7, beams := fld 2 0 9, stuckLimit := fld 4 0 14, mask := mask
        doubleThreshold := fld 18 0 16, fillLimit := fld 19 0 12, beamPitch := fld 20 0 15, rowPitch := fld 21 0 15
        trim := (ws.getD 22 0).toInt
        unit := (if fld 23 0 2 = 1 then .tft else if fld 23 0 2 = 2 then .dm2 else .qft)
        rounding := (if fld 23 8 2 = 1 then .down else .nearest)
        sw := fld 24 0 5, sl := fld 24 8 5, lineOffset := fld 25 0 12 }) ∧
    Unguarded.ofStaged ws = {
      gapBridge := fld 3 0 3, noiseLimit := fld 17 0 16, smallLimit := fld 26 0 16, oversizeLimit := fld 27 0 16
      bands := (List.range 8).map (fun k =>
        { low := fld (28 + k) 0 16, high := fld (28 + k) 16 16, stamp := (ws.getD 36 0).getLsbD k })
      stamping := (ws.getD 36 0).getLsbD 16, packSize := fld 37 0 10, markLag := fld 38 0 12
      windows := (List.range 4).map (fun w =>
        { base := fld (39 + w) 0 24, size := 2 ^ fld (39 + w) 24 2, readWrite := (ws.getD (39 + w) 0).getLsbD 26
          enable := (if fld (39 + w) 28 2 = 1 then .global else if fld (39 + w) 28 2 = 2 then .lot else .off) })
      ringBase := fld 43 0 24, ringSize := fld 44 0 11, haltMs := fld 45 0 13, parkS := fld 46 0 12
      framePeriod := fld 47 0 13 }) ∧
  (∀ p : Part,
    (p.setupQuiet = true ↔ p.tracker.pass = none ∧ p.openHides = [] ∧ p.jobs = [] ∧ p.intake.queue = []) ∧
    (p.setup.snapshot = none ∨ p.setupQuiet = false → p.applySnapshotIfQuiet = p) ∧
    (∀ n, p.setup.snapshot = some n → p.setupQuiet = true →
      let q := p.applySnapshotIfQuiet
      let old := p.setup.guarded
      q.setup = { p.setup with guarded := n.fields, snapshot := none } ∧ wCommit ∈ q.dirty ∧
      q.lots.openLot.calChanged = true ∧ (∀ l, q.lots.closing = some l → l.calChanged = true) ∧
      (p.recorder.outgoing.length < 8 → q.recorder.outgoing =
        p.recorder.outgoing ++ [.event .commitApplied p.tracker.rowIndex (n.tag.setWidth 32)]) ∧
      q.intake.autoMask = (if n.fields.mask = old.mask then p.intake.autoMask else 0) ∧
      (n.fields.mask ≠ old.mask → ∀ x ∈ q.intake.stuck, x = 0) ∧
      (n.fields.rowRingBase ≠ old.rowRingBase ∨ n.fields.slotCount ≠ old.slotCount ∨ n.fields.beams ≠ old.beams →
        q.intake.buffers = [] ∧ q.intake.queue = [] ∧ q.intake.syncPending = true ∧ ∀ x ∈ q.intake.stuck, x = 0)) ∧
    (∀ (j : Job) (o : StampOutcome), (p.finishJob j o).setup.snapshot ≠ none → (p.finishJob j o).setupQuiet = false)) ∧
  (∀ (tag : Half) (s : State),
    ((s.part.tracker.pass.isSome = true ∨ s.part.intake.queue ≠ []) →
      ∃ t, exec (.rowPass none) s = .next t ∧ (t.part.setup.snapshot ≠ none → t.part.setupQuiet = false)) ∧
    (s.part.tracker.pass = none →
      ∃ t, exec (.restart tag) s = .next t ∧ (t.part.setup.snapshot ≠ none → t.part.setupQuiet = false))) ∧
  ∀ (tag : Half) (s : State),
    let g := Guarded.ofStaged s.part.setup.staged
    let old := s.part.setup.guarded
    (∀ k, firstOutOfRange s.part.setup.staged = some k →
      exec (.commit tag) s = .next { s with
        part := s.part.setResult { tag := tag, code := 1, result := .range, offset := BitVec.ofNat 8 k } }) ∧
    (firstOutOfRange s.part.setup.staged = none →
      ∃ t r, exec (.commit tag) s = .next t ∧ t.path = s.path ∧
        t.part.setup.unguarded = Unguarded.ofStaged s.part.setup.staged ∧ t.part.setup.staged = s.part.setup.staged ∧
        t.part.setup.result = { tag := tag, code := 1, result := r, offset := 0 } ∧
        t.part.tracker = s.part.tracker ∧
        (g = old → r = .done ∧ t.part.setup.snapshot = none ∧ t.part.setup.guarded = old) ∧
        (g ≠ old → s.part.setupQuiet = true →
          r = .done ∧ t.part.setup.snapshot = none ∧ t.part.setup.guarded = g ∧ t.part.lots.openLot.calChanged = true ∧
          (∀ l, t.part.lots.closing = some l → l.calChanged = true) ∧
          t.part.intake.autoMask = (if g.mask = old.mask then s.part.intake.autoMask else 0) ∧
          (g.mask ≠ old.mask → ∀ x ∈ t.part.intake.stuck, x = 0) ∧
          (g.rowRingBase ≠ old.rowRingBase ∨ g.slotCount ≠ old.slotCount ∨ g.beams ≠ old.beams →
            t.part.intake.buffers = [] ∧ t.part.intake.queue = [] ∧ t.part.intake.syncPending = true)) ∧
        (g ≠ old → s.part.setupQuiet = false →
          r = .deferred ∧ t.part.setup.snapshot = some { fields := g, tag := tag } ∧ t.part.setup.guarded = old))

/-- CLEAR_STICKY (R98) and a code that names no command (R177). -/
def Obligations.ClearStickyAndUnknown : Prop :=
  ∀ (tag : Half) (s : State),
    (∃ t, exec (.clearSticky tag) s = .next t ∧ t.path = s.path ∧
      t.part.lots = { s.part.lots with sticky := 0, markDropSticky := false } ∧
      t.part.setup = { s.part.setup with result := { tag := tag, code := 4, result := .done, offset := 0 } } ∧
      t.part.recorder = s.part.recorder ∧ t.part.tracker = s.part.tracker ∧ t.part.head = s.part.head ∧
      (s.part.lots.sticky ≠ 0 ∨ s.part.lots.markDropSticky = true → wSticky ∈ t.part.dirty)) ∧
    (∀ code : BitVec 4, (code = 0 ∨ 8 ≤ code.toNat) →
      exec (.unknownCommand code tag) s = .next { s with part := s.part.answer tag code .unknown } ∧
      (s.part.answer tag code .unknown).setup =
        { s.part.setup with result := { tag := tag, code := code, result := .unknown, offset := 0 } })

/-! ### Records and the status block (chapter 11) -/

/-- The outgoing record queue and what a drop does (R93, R187): the counter, and RECORDS_DROPPED on the OPEN or CLOSING lot that the
record names, the OPEN one for an EVENT, none for a LOT record. A lot is told by its id alone, which is the model's reading (log
entry 15). -/
def Obligations.OutgoingRecordQueue : Prop :=
  ∀ (p : Part) (r : Record),
    (p.recorder.outgoing.length < 8 → p.emit r = { p with recorder.outgoing := p.recorder.outgoing ++ [r] }) ∧
    (8 ≤ p.recorder.outgoing.length → r.isLot = false → p.emit r = p.dropRecord r) ∧
    (8 ≤ p.recorder.outgoing.length → r.isLot = true →
      (∀ pre old lots, p.recorder.outgoing = pre ++ old :: lots → old.isLot = false → (∀ x ∈ lots, x.isLot = true) →
        p.emit r = ({ p with recorder.outgoing := pre ++ lots ++ [r] } : Part).dropRecord old) ∧
      ((∀ x ∈ p.recorder.outgoing, x.isLot = true) → p.emit r = p.dropRecord r)) ∧
    (p.dropRecord r).recorder = { p.recorder with dropped := p.recorder.dropped + 1 } ∧
    wRecordsDropped ∈ (p.dropRecord r).dirty ∧
    (∀ id : Half, (match r with
        | .hide info _ _ => some info.lot
        | .mark _ _ _ _ _ lot => some lot
        | .event _ _ _ => some p.lots.openLot.id
        | .lot _ => none) = some id →
      (p.dropRecord r).lots.openLot.recordsDropped =
        (p.lots.openLot.recordsDropped || decide (p.lots.openLot.id = id)) ∧
      ∀ c, p.lots.closing = some c → c.id ≠ p.lots.openLot.id →
        ∃ c', (p.dropRecord r).lots.closing = some c' ∧
          c' = { c with recordsDropped := c.recordsDropped || decide (c.id = id) }) ∧
    (p.dropRecord r).lots.openLot.tally = p.lots.openLot.tally ∧
    (r.isLot = true → (p.dropRecord r).lots = p.lots)

/-- The status words (11.3), the silicon revision a free constant (log entry 10). STATUS_WORD_POST (R171, R185): the lowest dirty word
is posted with its values now and leaves the set; without a place or a dirty word nothing happens. -/
def Obligations.StatusWordPost : Prop :=
  (∀ p : Part,
    let belt : BeltState → BitVec 2 := fun b => match b with
      | .running => 0
      | .halted => 1
      | .parked => 2
    let head : BitVec 4 := match p.head.state with
      | .unknown => 0
      | .homing => 1
      | .ready => 2
      | .preparing => 3
      | .armed => 4
      | .striking => 5
      | .faulted => 6
      | .parking => 7
      | .headParked => 8
    let result : BitVec 3 := match p.setup.result.result with
      | .done => 0
      | .deferred => 1
      | .range => 2
      | .busy => 3
      | .state => 4
      | .unknown => 5
    p.statusWord 0 = Config.siliconRevision ++ (0x38 : Byte) ++ (0x0157 : Half) ∧
    p.statusWord 1 = (0 : BitVec 20) ++ head ++ (0 : BitVec 4) ++ (p.belt.last.elim 3 belt) ++ belt p.belt.present ∧
    p.statusWord 2 = p.tracker.rowIndex ∧ p.statusWord 3 = p.tracker.counter.setWidth 32 ∧
    p.statusWord 4 = p.intake.accepted ∧ p.statusWord 5 = p.intake.synthesized ∧ p.statusWord 6 = p.intake.dropped ∧
    p.statusWord 7 = p.intake.duplicates ∧ p.statusWord 8 = p.tracker.closed ∧ p.statusWord 9 = p.recorder.dropped ∧
    p.statusWord 10 = p.lots.marksDropped ∧ p.statusWord 11 = p.head.errors ∧
    p.statusWord 12 = (0 : BitVec 23) ++ BitVec.ofBool p.lots.markDropSticky ++ (0 : BitVec 4) ++ p.lots.sticky ∧
    p.statusWord 13 = p.lots.openLot.id.setWidth 32 ∧
    (p.lots.closing = none → p.statusWord 14 = 0) ∧
    (∀ l, p.lots.closing = some l → p.statusWord 14 = (1 : Half) ++ l.id) ∧
    p.statusWord 15 = (if p.setup.snapshot = none then 0 else 1) ∧
    p.statusWord 16 = p.setup.result.tag ++ p.setup.result.offset ++ (0 : BitVec 1) ++ result ++ p.setup.result.code ∧
    p.statusWord 17 = BitVec.ofNat 32 p.recorder.p ∧ ∀ k, 18 ≤ k → p.statusWord k = 0) ∧
  ∀ s : State,
    (s.part.dirty = [] ∨ 16 ≤ s.path.placesTaken → exec .statusWordPost s = .next s) ∧
    (∀ w rest, s.part.dirty = w :: rest → s.path.placesTaken < 16 →
      exec .statusWordPost s = .next { s with
        part.dirty := rest
        path.queue := s.path.queue ++
          [{ addr := BitVec.ofNat 24 (s.path.base + 0x140 + 4 * w), data := s.part.statusWord w }] }) ∧
    (∀ (p : Part) (w k : Nat), k ∈ (p.mark w).dirty ↔ k = w ∨ k ∈ p.dirty) ∧
    (∀ (p : Part) (w : Nat), p.dirty.Pairwise (· < ·) → (p.mark w).dirty.Pairwise (· < ·))

/-- The record writer (R186, R188, R189): the sixteen words of each kind of record (11.5), for values that fit their fields; moving
out, handing in the words and the producer index, taking C; a COMMIT that changes the ring, which with the new size 0 drops the waiting
records in the same step (log entry 33). P's advance puts the word that shows it into the dirty set (R185, log entry 35). -/
def Obligations.RecordWriter : Prop :=
  (∀ r : Record, r.words.length = 16) ∧
  (let h16 : Nat → Half := BitVec.ofNat 16
   let bit : Bool → BitVec 1 := BitVec.ofBool
   (∀ (x : HideInfo) (o : StampOutcome) (strike : Option Word),
    let source : BitVec 4 := match x.source with
      | .belt => 0
      | .spill => 1
      | .manual => 2
    let grade : BitVec 4 := match x.grade with
      | .band k => BitVec.ofNat 4 k
      | .ungraded => 8
      | .small => 9
      | .oversize => 10
      | .review => 11
    let wheels : Half := match x.symbols with
      | none => 0xFFFF
      | some y => BitVec.ofNat 4 y.w4 ++ BitVec.ofNat 4 y.w3 ++ BitVec.ofNat 4 y.w2 ++ BitVec.ofNat 4 y.w1
    let outcome : Byte := match o with
      | .stamped => 0x00
      | .missed .passed => 0x01
      | .missed .notReady => 0x11
      | .missed .headFault => 0x21
      | .missed .restart => 0x31
      | .unstamped .review => 0x02
      | .unstamped .small => 0x12
      | .unstamped .oversize => 0x22
      | .unstamped .bandOff => 0x32
      | .unstamped .stampOff => 0x42
      | .unstamped .headFault => 0x52
      | .unstamped .noSite => 0x62
      | .unstamped .lateClose => 0x72
      | .unstamped .queueFull => 0x82
      | .unstamped .truncated => 0x92
      | .unstamped .manual => 0xA2
    let f := x.flags
    (∀ k, x.grade = .band k → k < 8) → (∀ y, x.symbols = some y → y.w1 < 16 ∧ y.w2 < 16 ∧ y.w3 < 16 ∧ y.w4 < 16) →
    x.merges < 65536 → x.minCol < 65536 → x.maxCol < 65536 → x.holesFilled < 65536 → x.holesLarge < 65536 →
    x.holesBreached < 65536 →
    (Record.hide x o strike).words =
      [x.number ++ grade ++ source ++ (1 : Byte), h16 x.merges ++ x.lot, x.firstRow, x.lastRow,
       h16 x.maxCol ++ h16 x.minCol, BitVec.ofNat 32 x.covered, BitVec.ofNat 32 x.filled, BitVec.ofNat 32 x.units,
       (0 : Half) ++ wheels, h16 x.holesLarge ++ h16 x.holesFilled, (0 : Half) ++ h16 x.holesBreached,
       (0 : BitVec 23) ++ bit f.truncated ++ bit f.maskedBeams ++ bit f.edge ++ bit f.gapRows ++ bit f.holeLimit ++
         bit f.noisy ++ bit f.fragment ++ bit f.spillJoined ++ bit f.double,
       (0 : BitVec 22) ++ bit strike.isSome ++ bit x.site.isSome ++ outcome,
       x.site.elim 0 Site.row, x.site.elim 0 (fun y => BitVec.ofNat 32 y.col), strike.getD 0]) ∧
   (∀ l : Lot,
    let t := l.tally
    t.fits → t.small < 65536 → t.oversize < 65536 → t.review < 65536 → t.ungraded < 65536 → (∀ b ∈ t.bands, b < 65536) →
    let band := fun k => h16 (t.bands.getD k 0)
    (Record.lot l).words =
      [l.id ++ (0 : BitVec 5) ++ bit l.packAuto ++ bit l.recordsDropped ++ bit l.calChanged ++ (2 : Byte), l.startRow,
       h16 t.births ++ h16 t.hides, BitVec.ofNat 32 t.totalUnits, h16 t.unstamped ++ h16 t.stamped,
       band 1 ++ band 0, band 3 ++ band 2, band 5 ++ band 4, band 7 ++ band 6, h16 t.oversize ++ h16 t.small,
       h16 t.ungraded ++ h16 t.review, h16 t.marks ++ h16 t.manual, 0, 0, 0, 0]) ∧
   (∀ (window : Nat) (data hitRow : Word) (bound : Option Half) (ambiguous : Bool) (lot : Half), window < 4 →
    (Record.mark window data hitRow bound ambiguous lot).words =
      [bound.getD 0 ++ (0 : BitVec 2) ++ bit ambiguous ++ bit bound.isSome ++ BitVec.ofNat 4 window ++ (3 : Byte), data,
       hitRow, (0 : Half) ++ lot] ++ List.replicate 12 0) ∧
   (∀ (k : EventKind) (row argument : Word),
    let kind : Byte := match k with
      | .rowIncomplete => 1
      | .rowOverrun => 2
      | .beltGap => 3
      | .beamStuck => 4
      | .hideTableFull => 5
      | .holeTableFull => 6
      | .fragmentRow => 7
      | .headFault => 8
      | .commitApplied => 9
    (Record.event k row argument).words = [(0 : Half) ++ kind ++ (4 : Byte), row, argument] ++ List.replicate 13 0) ∧
   (∀ (slot : BitVec 3) (c : FaultCode),
    headFaultArg slot.toNat c = (0 : BitVec 4) ++ (match c with
      | .module m => m
      | .absent | .parity | .mismatch | .count | .noStrike => (0 : BitVec 12)) ++ (0 : BitVec 5) ++ (match c with
      | .module _ => (0 : BitVec 3)
      | .absent => 1
      | .parity => 2
      | .mismatch => 3
      | .count => 4
      | .noStrike => 5) ++ (0 : BitVec 5) ++ slot)) ∧
  (∀ (tag : Half) (s : State), firstOutOfRange s.part.setup.staged = none →
    let u := Unguarded.ofStaged s.part.setup.staged
    let old := s.part.setup.unguarded
    let rec_ := s.part.recorder
    ∃ t, exec (.commit tag) s = .next t ∧
      (u.ringBase = old.ringBase → u.ringSize = old.ringSize → t.part.recorder = rec_) ∧
      (u.ringBase ≠ old.ringBase ∨ u.ringSize ≠ old.ringSize →
        wProducer ∈ t.part.dirty ∧
        t.part.recorder = { rec_ with
          p := 0
          c := 0
          inProgress := none
          outgoing := if u.ringSize = 0 then [] else rec_.outgoing
          dropped := rec_.dropped + BitVec.ofNat 32 (rec_.inProgress.toList.length +
            if u.ringSize = 0 then rec_.outgoing.length else 0) })) ∧
  ∀ s : State,
    let n := s.part.setup.unguarded.ringSize
    let rec_ := s.part.recorder
    (∀ r rest, rec_.inProgress = none → rec_.outgoing = r :: rest →
      (n = 0 → exec .recordMoveOut s = .next { s with
        part := ({ s.part with recorder.outgoing := rest } : Part).dropRecord r }) ∧
      (n ≠ 0 → (rec_.p + n - rec_.c) % n = n - 1 → exec .recordMoveOut s = .next s) ∧
      (n ≠ 0 → (rec_.p + n - rec_.c) % n ≠ n - 1 → exec .recordMoveOut s = .next { s with
        part.recorder.outgoing := rest
        part.recorder.inProgress := some { record := r, next := 0 } })) ∧
    (rec_.inProgress.isSome = true ∨ rec_.outgoing = [] → exec .recordMoveOut s = .next s) ∧
    (∀ o, rec_.inProgress = some o → o.next < 16 → s.path.placesTaken < 16 →
      exec .recordWordHandIn s = .next { s with
        part.recorder.inProgress := some { o with next := o.next + 1 }
        path.queue := s.path.queue ++
          [{ addr := BitVec.ofNat 24 (s.part.setup.unguarded.ringBase + 64 * rec_.p + 4 * o.next)
             data := o.record.words.getD o.next 0 }] }) ∧
    (∀ o, rec_.inProgress = some o → 16 ≤ o.next → s.path.placesTaken < 16 →
      exec .producerIndexHandIn s = .next { s with
        part := ({ s.part with
          recorder.p := (rec_.p + 1) % n
          recorder.inProgress := none } : Part).mark wProducer
        path.queue := s.path.queue ++
          [{ addr := BitVec.ofNat 24 (s.path.base + 0x184), data := BitVec.ofNat 32 ((rec_.p + 1) % n) }] }) ∧
    (16 ≤ s.path.placesTaken → exec .recordWordHandIn s = .next s ∧ exec .producerIndexHandIn s = .next s) ∧
    (∀ (en : Lanes) (data : Word),
      let held : BitVec 11 := (mergeLanes (rec_.heldC.setWidth 32) data en).setWidth 11
      exec (.consumerIndexWrite en data) s = .next (if en = 0 then s else { s with
        part.recorder.heldC := held
        part.recorder.c := if held.toNat < n then held.toNat else rec_.c }))
end

