-- ==== Sys2Proof/Laws/State.lean ====
section
/-! SUPPORT. What each small update leaves alone, field by field: rewriting lemmas for the simplifier. -/

namespace Sys2Proof.Machine

variable (p : Part) (s : State)

@[simp] theorem Part.mark_intake (w : Nat) : (p.mark w).intake = p.intake := rfl
@[simp] theorem Part.mark_tracker (w : Nat) : (p.mark w).tracker = p.tracker := rfl
@[simp] theorem Part.mark_holes (w : Nat) : (p.mark w).holes = p.holes := rfl
@[simp] theorem Part.mark_sched (w : Nat) : (p.mark w).sched = p.sched := rfl
@[simp] theorem Part.mark_head (w : Nat) : (p.mark w).head = p.head := rfl
@[simp] theorem Part.mark_belt (w : Nat) : (p.mark w).belt = p.belt := rfl
@[simp] theorem Part.mark_lots (w : Nat) : (p.mark w).lots = p.lots := rfl
@[simp] theorem Part.mark_setup (w : Nat) : (p.mark w).setup = p.setup := rfl
@[simp] theorem Part.mark_recorder (w : Nat) : (p.mark w).recorder = p.recorder := rfl
@[simp] theorem Part.mark_free (w : Nat) : (p.mark w).free = p.free := rfl

@[simp] theorem Part.atStage_intake (r : CondRow) (st : PassStage) : (p.atStage r st).intake = p.intake := rfl
@[simp] theorem Part.atStage_holes (r : CondRow) (st : PassStage) : (p.atStage r st).holes = p.holes := rfl
@[simp] theorem Part.atStage_sched (r : CondRow) (st : PassStage) : (p.atStage r st).sched = p.sched := rfl
@[simp] theorem Part.atStage_head (r : CondRow) (st : PassStage) : (p.atStage r st).head = p.head := rfl
@[simp] theorem Part.atStage_belt (r : CondRow) (st : PassStage) : (p.atStage r st).belt = p.belt := rfl
@[simp] theorem Part.atStage_lots (r : CondRow) (st : PassStage) : (p.atStage r st).lots = p.lots := rfl
@[simp] theorem Part.atStage_setup (r : CondRow) (st : PassStage) : (p.atStage r st).setup = p.setup := rfl
@[simp] theorem Part.atStage_recorder (r : CondRow) (st : PassStage) : (p.atStage r st).recorder = p.recorder := rfl
@[simp] theorem Part.atStage_dirty (r : CondRow) (st : PassStage) : (p.atStage r st).dirty = p.dirty := rfl
@[simp] theorem Part.atStage_free (r : CondRow) (st : PassStage) : (p.atStage r st).free = p.free := rfl

@[simp] theorem Part.dropInHand_intake : (p.dropInHand).intake = p.intake := rfl
@[simp] theorem Part.dropInHand_tracker : (p.dropInHand).tracker = p.tracker := rfl
@[simp] theorem Part.dropInHand_holes : (p.dropInHand).holes = p.holes := rfl
@[simp] theorem Part.dropInHand_sched : (p.dropInHand).sched = p.sched := rfl
@[simp] theorem Part.dropInHand_belt : (p.dropInHand).belt = p.belt := rfl
@[simp] theorem Part.dropInHand_lots : (p.dropInHand).lots = p.lots := rfl
@[simp] theorem Part.dropInHand_setup : (p.dropInHand).setup = p.setup := rfl
@[simp] theorem Part.dropInHand_recorder : (p.dropInHand).recorder = p.recorder := rfl
@[simp] theorem Part.dropInHand_dirty : (p.dropInHand).dirty = p.dirty := rfl
@[simp] theorem Part.dropInHand_free : (p.dropInHand).free = p.free := rfl

@[simp] theorem Part.clearHeights_intake : (p.clearHeights).intake = p.intake := rfl
@[simp] theorem Part.clearHeights_tracker : (p.clearHeights).tracker = p.tracker := rfl
@[simp] theorem Part.clearHeights_holes : (p.clearHeights).holes = p.holes := rfl
@[simp] theorem Part.clearHeights_head : (p.clearHeights).head = p.head := rfl
@[simp] theorem Part.clearHeights_belt : (p.clearHeights).belt = p.belt := rfl
@[simp] theorem Part.clearHeights_lots : (p.clearHeights).lots = p.lots := rfl
@[simp] theorem Part.clearHeights_setup : (p.clearHeights).setup = p.setup := rfl
@[simp] theorem Part.clearHeights_recorder : (p.clearHeights).recorder = p.recorder := rfl
@[simp] theorem Part.clearHeights_dirty : (p.clearHeights).dirty = p.dirty := rfl
@[simp] theorem Part.clearHeights_free : (p.clearHeights).free = p.free := rfl

@[simp] theorem Part.clearRuns_intake : (p.clearRuns).intake = p.intake := rfl
@[simp] theorem Part.clearRuns_tracker : (p.clearRuns).tracker = p.tracker := rfl
@[simp] theorem Part.clearRuns_holes : (p.clearRuns).holes = p.holes := rfl
@[simp] theorem Part.clearRuns_sched : (p.clearRuns).sched = p.sched := rfl
@[simp] theorem Part.clearRuns_belt : (p.clearRuns).belt = p.belt := rfl
@[simp] theorem Part.clearRuns_lots : (p.clearRuns).lots = p.lots := rfl
@[simp] theorem Part.clearRuns_setup : (p.clearRuns).setup = p.setup := rfl
@[simp] theorem Part.clearRuns_recorder : (p.clearRuns).recorder = p.recorder := rfl
@[simp] theorem Part.clearRuns_dirty : (p.clearRuns).dirty = p.dirty := rfl
@[simp] theorem Part.clearRuns_free : (p.clearRuns).free = p.free := rfl

@[simp] theorem Part.setJobState_intake (st : JobState) : (p.setJobState st).intake = p.intake := rfl
@[simp] theorem Part.setJobState_tracker (st : JobState) : (p.setJobState st).tracker = p.tracker := rfl
@[simp] theorem Part.setJobState_holes (st : JobState) : (p.setJobState st).holes = p.holes := rfl
@[simp] theorem Part.setJobState_head (st : JobState) : (p.setJobState st).head = p.head := rfl
@[simp] theorem Part.setJobState_belt (st : JobState) : (p.setJobState st).belt = p.belt := rfl
@[simp] theorem Part.setJobState_lots (st : JobState) : (p.setJobState st).lots = p.lots := rfl
@[simp] theorem Part.setJobState_setup (st : JobState) : (p.setJobState st).setup = p.setup := rfl
@[simp] theorem Part.setJobState_recorder (st : JobState) : (p.setJobState st).recorder = p.recorder := rfl
@[simp] theorem Part.setJobState_dirty (st : JobState) : (p.setJobState st).dirty = p.dirty := rfl
@[simp] theorem Part.setJobState_free (st : JobState) : (p.setJobState st).free = p.free := rfl

@[simp] theorem Part.moveBelt_intake (b : BeltState) : (p.moveBelt b).intake = p.intake := rfl
@[simp] theorem Part.moveBelt_tracker (b : BeltState) : (p.moveBelt b).tracker = p.tracker := rfl
@[simp] theorem Part.moveBelt_holes (b : BeltState) : (p.moveBelt b).holes = p.holes := rfl
@[simp] theorem Part.moveBelt_sched (b : BeltState) : (p.moveBelt b).sched = p.sched := rfl
@[simp] theorem Part.moveBelt_head (b : BeltState) : (p.moveBelt b).head = p.head := rfl
@[simp] theorem Part.moveBelt_lots (b : BeltState) : (p.moveBelt b).lots = p.lots := rfl
@[simp] theorem Part.moveBelt_setup (b : BeltState) : (p.moveBelt b).setup = p.setup := rfl
@[simp] theorem Part.moveBelt_recorder (b : BeltState) : (p.moveBelt b).recorder = p.recorder := rfl
@[simp] theorem Part.moveBelt_free (b : BeltState) : (p.moveBelt b).free = p.free := rfl

@[simp] theorem Part.startHalt_intake : (p.startHalt).intake = p.intake := rfl
@[simp] theorem Part.startHalt_tracker : (p.startHalt).tracker = p.tracker := rfl
@[simp] theorem Part.startHalt_holes : (p.startHalt).holes = p.holes := rfl
@[simp] theorem Part.startHalt_sched : (p.startHalt).sched = p.sched := rfl
@[simp] theorem Part.startHalt_head : (p.startHalt).head = p.head := rfl
@[simp] theorem Part.startHalt_lots : (p.startHalt).lots = p.lots := rfl
@[simp] theorem Part.startHalt_setup : (p.startHalt).setup = p.setup := rfl
@[simp] theorem Part.startHalt_recorder : (p.startHalt).recorder = p.recorder := rfl
@[simp] theorem Part.startHalt_dirty : (p.startHalt).dirty = p.dirty := rfl
@[simp] theorem Part.startHalt_free : (p.startHalt).free = p.free := rfl

@[simp] theorem Part.setHole_intake (h : Nat) (x : Option Hole) : (p.setHole h x).intake = p.intake := rfl
@[simp] theorem Part.setHole_tracker (h : Nat) (x : Option Hole) : (p.setHole h x).tracker = p.tracker := rfl
@[simp] theorem Part.setHole_sched (h : Nat) (x : Option Hole) : (p.setHole h x).sched = p.sched := rfl
@[simp] theorem Part.setHole_head (h : Nat) (x : Option Hole) : (p.setHole h x).head = p.head := rfl
@[simp] theorem Part.setHole_belt (h : Nat) (x : Option Hole) : (p.setHole h x).belt = p.belt := rfl
@[simp] theorem Part.setHole_lots (h : Nat) (x : Option Hole) : (p.setHole h x).lots = p.lots := rfl
@[simp] theorem Part.setHole_setup (h : Nat) (x : Option Hole) : (p.setHole h x).setup = p.setup := rfl
@[simp] theorem Part.setHole_recorder (h : Nat) (x : Option Hole) : (p.setHole h x).recorder = p.recorder := rfl
@[simp] theorem Part.setHole_dirty (h : Nat) (x : Option Hole) : (p.setHole h x).dirty = p.dirty := rfl
@[simp] theorem Part.setHole_free (h : Nat) (x : Option Hole) : (p.setHole h x).free = p.free := rfl

@[simp] theorem Part.addRun_intake (g : Gap) (h : Nat) : (p.addRun g h).intake = p.intake := rfl
@[simp] theorem Part.addRun_tracker (g : Gap) (h : Nat) : (p.addRun g h).tracker = p.tracker := rfl
@[simp] theorem Part.addRun_sched (g : Gap) (h : Nat) : (p.addRun g h).sched = p.sched := rfl
@[simp] theorem Part.addRun_head (g : Gap) (h : Nat) : (p.addRun g h).head = p.head := rfl
@[simp] theorem Part.addRun_belt (g : Gap) (h : Nat) : (p.addRun g h).belt = p.belt := rfl
@[simp] theorem Part.addRun_lots (g : Gap) (h : Nat) : (p.addRun g h).lots = p.lots := rfl
@[simp] theorem Part.addRun_setup (g : Gap) (h : Nat) : (p.addRun g h).setup = p.setup := rfl
@[simp] theorem Part.addRun_recorder (g : Gap) (h : Nat) : (p.addRun g h).recorder = p.recorder := rfl
@[simp] theorem Part.addRun_dirty (g : Gap) (h : Nat) : (p.addRun g h).dirty = p.dirty := rfl
@[simp] theorem Part.addRun_free (g : Gap) (h : Nat) : (p.addRun g h).free = p.free := rfl

@[simp] theorem Part.emptyLists_intake : (p.emptyLists).intake = p.intake := rfl
@[simp] theorem Part.emptyLists_sched : (p.emptyLists).sched = p.sched := rfl
@[simp] theorem Part.emptyLists_head : (p.emptyLists).head = p.head := rfl
@[simp] theorem Part.emptyLists_belt : (p.emptyLists).belt = p.belt := rfl
@[simp] theorem Part.emptyLists_lots : (p.emptyLists).lots = p.lots := rfl
@[simp] theorem Part.emptyLists_setup : (p.emptyLists).setup = p.setup := rfl
@[simp] theorem Part.emptyLists_recorder : (p.emptyLists).recorder = p.recorder := rfl
@[simp] theorem Part.emptyLists_dirty : (p.emptyLists).dirty = p.dirty := rfl
@[simp] theorem Part.emptyLists_free : (p.emptyLists).free = p.free := rfl

@[simp] theorem Part.queueRow_tracker (r : CondRow) : (p.queueRow r).tracker = p.tracker := rfl
@[simp] theorem Part.queueRow_holes (r : CondRow) : (p.queueRow r).holes = p.holes := rfl
@[simp] theorem Part.queueRow_sched (r : CondRow) : (p.queueRow r).sched = p.sched := rfl
@[simp] theorem Part.queueRow_head (r : CondRow) : (p.queueRow r).head = p.head := rfl
@[simp] theorem Part.queueRow_belt (r : CondRow) : (p.queueRow r).belt = p.belt := rfl
@[simp] theorem Part.queueRow_lots (r : CondRow) : (p.queueRow r).lots = p.lots := rfl
@[simp] theorem Part.queueRow_setup (r : CondRow) : (p.queueRow r).setup = p.setup := rfl
@[simp] theorem Part.queueRow_recorder (r : CondRow) : (p.queueRow r).recorder = p.recorder := rfl
@[simp] theorem Part.queueRow_dirty (r : CondRow) : (p.queueRow r).dirty = p.dirty := rfl
@[simp] theorem Part.queueRow_free (r : CondRow) : (p.queueRow r).free = p.free := rfl

@[simp] theorem Part.writeStaged_intake (i : Nat) (en : Lanes) (d : Word) : (p.writeStaged i en d).intake = p.intake := rfl
@[simp] theorem Part.writeStaged_tracker (i : Nat) (en : Lanes) (d : Word) : (p.writeStaged i en d).tracker = p.tracker := rfl
@[simp] theorem Part.writeStaged_holes (i : Nat) (en : Lanes) (d : Word) : (p.writeStaged i en d).holes = p.holes := rfl
@[simp] theorem Part.writeStaged_sched (i : Nat) (en : Lanes) (d : Word) : (p.writeStaged i en d).sched = p.sched := rfl
@[simp] theorem Part.writeStaged_head (i : Nat) (en : Lanes) (d : Word) : (p.writeStaged i en d).head = p.head := rfl
@[simp] theorem Part.writeStaged_belt (i : Nat) (en : Lanes) (d : Word) : (p.writeStaged i en d).belt = p.belt := rfl
@[simp] theorem Part.writeStaged_lots (i : Nat) (en : Lanes) (d : Word) : (p.writeStaged i en d).lots = p.lots := rfl
@[simp] theorem Part.writeStaged_recorder (i : Nat) (en : Lanes) (d : Word) : (p.writeStaged i en d).recorder = p.recorder := rfl
@[simp] theorem Part.writeStaged_dirty (i : Nat) (en : Lanes) (d : Word) : (p.writeStaged i en d).dirty = p.dirty := rfl
@[simp] theorem Part.writeStaged_free (i : Nat) (en : Lanes) (d : Word) : (p.writeStaged i en d).free = p.free := rfl

@[simp] theorem Part.addRecent_intake (r : RecentHide) : (p.addRecent r).intake = p.intake := rfl
@[simp] theorem Part.addRecent_tracker (r : RecentHide) : (p.addRecent r).tracker = p.tracker := rfl
@[simp] theorem Part.addRecent_holes (r : RecentHide) : (p.addRecent r).holes = p.holes := rfl
@[simp] theorem Part.addRecent_sched (r : RecentHide) : (p.addRecent r).sched = p.sched := rfl
@[simp] theorem Part.addRecent_head (r : RecentHide) : (p.addRecent r).head = p.head := rfl
@[simp] theorem Part.addRecent_belt (r : RecentHide) : (p.addRecent r).belt = p.belt := rfl
@[simp] theorem Part.addRecent_setup (r : RecentHide) : (p.addRecent r).setup = p.setup := rfl
@[simp] theorem Part.addRecent_recorder (r : RecentHide) : (p.addRecent r).recorder = p.recorder := rfl
@[simp] theorem Part.addRecent_dirty (r : RecentHide) : (p.addRecent r).dirty = p.dirty := rfl
@[simp] theorem Part.addRecent_free (r : RecentHide) : (p.addRecent r).free = p.free := rfl

@[simp] theorem Part.clearAutoMask_tracker : (p.clearAutoMask).tracker = p.tracker := by unfold Part.clearAutoMask; rfl
@[simp] theorem Part.clearAutoMask_holes : (p.clearAutoMask).holes = p.holes := by unfold Part.clearAutoMask; rfl
@[simp] theorem Part.clearAutoMask_sched : (p.clearAutoMask).sched = p.sched := by unfold Part.clearAutoMask; rfl
@[simp] theorem Part.clearAutoMask_head : (p.clearAutoMask).head = p.head := by unfold Part.clearAutoMask; rfl
@[simp] theorem Part.clearAutoMask_belt : (p.clearAutoMask).belt = p.belt := by unfold Part.clearAutoMask; rfl
@[simp] theorem Part.clearAutoMask_lots : (p.clearAutoMask).lots = p.lots := by unfold Part.clearAutoMask; rfl
@[simp] theorem Part.clearAutoMask_setup : (p.clearAutoMask).setup = p.setup := by unfold Part.clearAutoMask; rfl
@[simp] theorem Part.clearAutoMask_recorder : (p.clearAutoMask).recorder = p.recorder := by unfold Part.clearAutoMask; rfl
@[simp] theorem Part.clearAutoMask_dirty : (p.clearAutoMask).dirty = p.dirty := by unfold Part.clearAutoMask; rfl
@[simp] theorem Part.clearAutoMask_free : (p.clearAutoMask).free = p.free := by unfold Part.clearAutoMask; rfl

@[simp] theorem Part.reconfigureRowRing_tracker : (p.reconfigureRowRing).tracker = p.tracker := by unfold Part.reconfigureRowRing; rfl
@[simp] theorem Part.reconfigureRowRing_holes : (p.reconfigureRowRing).holes = p.holes := by unfold Part.reconfigureRowRing; rfl
@[simp] theorem Part.reconfigureRowRing_sched : (p.reconfigureRowRing).sched = p.sched := by unfold Part.reconfigureRowRing; rfl
@[simp] theorem Part.reconfigureRowRing_head : (p.reconfigureRowRing).head = p.head := by unfold Part.reconfigureRowRing; rfl
@[simp] theorem Part.reconfigureRowRing_belt : (p.reconfigureRowRing).belt = p.belt := by unfold Part.reconfigureRowRing; rfl
@[simp] theorem Part.reconfigureRowRing_lots : (p.reconfigureRowRing).lots = p.lots := by unfold Part.reconfigureRowRing; rfl
@[simp] theorem Part.reconfigureRowRing_setup : (p.reconfigureRowRing).setup = p.setup := by unfold Part.reconfigureRowRing; rfl
@[simp] theorem Part.reconfigureRowRing_recorder : (p.reconfigureRowRing).recorder = p.recorder := by unfold Part.reconfigureRowRing; rfl
@[simp] theorem Part.reconfigureRowRing_dirty : (p.reconfigureRowRing).dirty = p.dirty := by unfold Part.reconfigureRowRing; rfl
@[simp] theorem Part.reconfigureRowRing_free : (p.reconfigureRowRing).free = p.free := by unfold Part.reconfigureRowRing; rfl

@[simp] theorem Part.flagCalChanged_intake : (p.flagCalChanged).intake = p.intake := rfl
@[simp] theorem Part.flagCalChanged_tracker : (p.flagCalChanged).tracker = p.tracker := rfl
@[simp] theorem Part.flagCalChanged_holes : (p.flagCalChanged).holes = p.holes := rfl
@[simp] theorem Part.flagCalChanged_sched : (p.flagCalChanged).sched = p.sched := rfl
@[simp] theorem Part.flagCalChanged_head : (p.flagCalChanged).head = p.head := rfl
@[simp] theorem Part.flagCalChanged_belt : (p.flagCalChanged).belt = p.belt := rfl
@[simp] theorem Part.flagCalChanged_setup : (p.flagCalChanged).setup = p.setup := rfl
@[simp] theorem Part.flagCalChanged_recorder : (p.flagCalChanged).recorder = p.recorder := rfl
@[simp] theorem Part.flagCalChanged_dirty : (p.flagCalChanged).dirty = p.dirty := rfl
@[simp] theorem Part.flagCalChanged_free : (p.flagCalChanged).free = p.free := rfl

@[simp] theorem Part.placeJob_intake (j : Job) : (p.placeJob j).intake = p.intake := rfl
@[simp] theorem Part.placeJob_tracker (j : Job) : (p.placeJob j).tracker = p.tracker := rfl
@[simp] theorem Part.placeJob_holes (j : Job) : (p.placeJob j).holes = p.holes := rfl
@[simp] theorem Part.placeJob_head (j : Job) : (p.placeJob j).head = p.head := rfl
@[simp] theorem Part.placeJob_belt (j : Job) : (p.placeJob j).belt = p.belt := rfl
@[simp] theorem Part.placeJob_lots (j : Job) : (p.placeJob j).lots = p.lots := rfl
@[simp] theorem Part.placeJob_setup (j : Job) : (p.placeJob j).setup = p.setup := rfl
@[simp] theorem Part.placeJob_recorder (j : Job) : (p.placeJob j).recorder = p.recorder := rfl
@[simp] theorem Part.placeJob_dirty (j : Job) : (p.placeJob j).dirty = p.dirty := rfl
@[simp] theorem Part.placeJob_free (j : Job) : (p.placeJob j).free = p.free := rfl

@[simp] theorem Part.enterHead_intake (st : HeadState) : (p.enterHead st).intake = p.intake := by unfold Part.enterHead; dsimp only; split <;> rfl
@[simp] theorem Part.enterHead_tracker (st : HeadState) : (p.enterHead st).tracker = p.tracker := by unfold Part.enterHead; dsimp only; split <;> rfl
@[simp] theorem Part.enterHead_holes (st : HeadState) : (p.enterHead st).holes = p.holes := by unfold Part.enterHead; dsimp only; split <;> rfl
@[simp] theorem Part.enterHead_sched (st : HeadState) : (p.enterHead st).sched = p.sched := by unfold Part.enterHead; dsimp only; split <;> rfl
@[simp] theorem Part.enterHead_belt (st : HeadState) : (p.enterHead st).belt = p.belt := by unfold Part.enterHead; dsimp only; split <;> rfl
@[simp] theorem Part.enterHead_lots (st : HeadState) : (p.enterHead st).lots = p.lots := by unfold Part.enterHead; dsimp only; split <;> rfl
@[simp] theorem Part.enterHead_setup (st : HeadState) : (p.enterHead st).setup = p.setup := by unfold Part.enterHead; dsimp only; split <;> rfl
@[simp] theorem Part.enterHead_recorder (st : HeadState) : (p.enterHead st).recorder = p.recorder := by unfold Part.enterHead; dsimp only; split <;> rfl
@[simp] theorem Part.enterHead_free (st : HeadState) : (p.enterHead st).free = p.free := by unfold Part.enterHead; dsimp only; split <;> rfl

@[simp] theorem Part.setHide_intake (o : Owner) (h : Option Hide) : (p.setHide o h).intake = p.intake := by cases o <;> rfl
@[simp] theorem Part.setHide_holes (o : Owner) (h : Option Hide) : (p.setHide o h).holes = p.holes := by cases o <;> rfl
@[simp] theorem Part.setHide_sched (o : Owner) (h : Option Hide) : (p.setHide o h).sched = p.sched := by cases o <;> rfl
@[simp] theorem Part.setHide_head (o : Owner) (h : Option Hide) : (p.setHide o h).head = p.head := by cases o <;> rfl
@[simp] theorem Part.setHide_belt (o : Owner) (h : Option Hide) : (p.setHide o h).belt = p.belt := by cases o <;> rfl
@[simp] theorem Part.setHide_lots (o : Owner) (h : Option Hide) : (p.setHide o h).lots = p.lots := by cases o <;> rfl
@[simp] theorem Part.setHide_setup (o : Owner) (h : Option Hide) : (p.setHide o h).setup = p.setup := by cases o <;> rfl
@[simp] theorem Part.setHide_recorder (o : Owner) (h : Option Hide) : (p.setHide o h).recorder = p.recorder := by cases o <;> rfl
@[simp] theorem Part.setHide_dirty (o : Owner) (h : Option Hide) : (p.setHide o h).dirty = p.dirty := by cases o <;> rfl
@[simp] theorem Part.setHide_free (o : Owner) (h : Option Hide) : (p.setHide o h).free = p.free := by cases o <;> rfl

@[simp] theorem Part.modifyHide_intake (o : Owner) (f : Hide → Hide) : (p.modifyHide o f).intake = p.intake := by cases o <;> rfl
@[simp] theorem Part.modifyHide_holes (o : Owner) (f : Hide → Hide) : (p.modifyHide o f).holes = p.holes := by cases o <;> rfl
@[simp] theorem Part.modifyHide_sched (o : Owner) (f : Hide → Hide) : (p.modifyHide o f).sched = p.sched := by cases o <;> rfl
@[simp] theorem Part.modifyHide_head (o : Owner) (f : Hide → Hide) : (p.modifyHide o f).head = p.head := by cases o <;> rfl
@[simp] theorem Part.modifyHide_belt (o : Owner) (f : Hide → Hide) : (p.modifyHide o f).belt = p.belt := by cases o <;> rfl
@[simp] theorem Part.modifyHide_lots (o : Owner) (f : Hide → Hide) : (p.modifyHide o f).lots = p.lots := by cases o <;> rfl
@[simp] theorem Part.modifyHide_setup (o : Owner) (f : Hide → Hide) : (p.modifyHide o f).setup = p.setup := by cases o <;> rfl
@[simp] theorem Part.modifyHide_recorder (o : Owner) (f : Hide → Hide) : (p.modifyHide o f).recorder = p.recorder := by cases o <;> rfl
@[simp] theorem Part.modifyHide_dirty (o : Owner) (f : Hide → Hide) : (p.modifyHide o f).dirty = p.dirty := by cases o <;> rfl
@[simp] theorem Part.modifyHide_free (o : Owner) (f : Hide → Hide) : (p.modifyHide o f).free = p.free := by cases o <;> rfl

@[simp] theorem Part.setSnapshot_intake (x : Option Snapshot) : (p.setSnapshot x).intake = p.intake := by unfold Part.setSnapshot; dsimp only; split <;> rfl
@[simp] theorem Part.setSnapshot_tracker (x : Option Snapshot) : (p.setSnapshot x).tracker = p.tracker := by unfold Part.setSnapshot; dsimp only; split <;> rfl
@[simp] theorem Part.setSnapshot_holes (x : Option Snapshot) : (p.setSnapshot x).holes = p.holes := by unfold Part.setSnapshot; dsimp only; split <;> rfl
@[simp] theorem Part.setSnapshot_sched (x : Option Snapshot) : (p.setSnapshot x).sched = p.sched := by unfold Part.setSnapshot; dsimp only; split <;> rfl
@[simp] theorem Part.setSnapshot_head (x : Option Snapshot) : (p.setSnapshot x).head = p.head := by unfold Part.setSnapshot; dsimp only; split <;> rfl
@[simp] theorem Part.setSnapshot_belt (x : Option Snapshot) : (p.setSnapshot x).belt = p.belt := by unfold Part.setSnapshot; dsimp only; split <;> rfl
@[simp] theorem Part.setSnapshot_lots (x : Option Snapshot) : (p.setSnapshot x).lots = p.lots := by unfold Part.setSnapshot; dsimp only; split <;> rfl
@[simp] theorem Part.setSnapshot_recorder (x : Option Snapshot) : (p.setSnapshot x).recorder = p.recorder := by unfold Part.setSnapshot; dsimp only; split <;> rfl
@[simp] theorem Part.setSnapshot_free (x : Option Snapshot) : (p.setSnapshot x).free = p.free := by unfold Part.setSnapshot; dsimp only; split <;> rfl

@[simp] theorem Part.setResult_intake (r : CmdResult) : (p.setResult r).intake = p.intake := by unfold Part.setResult; dsimp only; split <;> rfl
@[simp] theorem Part.setResult_tracker (r : CmdResult) : (p.setResult r).tracker = p.tracker := by unfold Part.setResult; dsimp only; split <;> rfl
@[simp] theorem Part.setResult_holes (r : CmdResult) : (p.setResult r).holes = p.holes := by unfold Part.setResult; dsimp only; split <;> rfl
@[simp] theorem Part.setResult_sched (r : CmdResult) : (p.setResult r).sched = p.sched := by unfold Part.setResult; dsimp only; split <;> rfl
@[simp] theorem Part.setResult_head (r : CmdResult) : (p.setResult r).head = p.head := by unfold Part.setResult; dsimp only; split <;> rfl
@[simp] theorem Part.setResult_belt (r : CmdResult) : (p.setResult r).belt = p.belt := by unfold Part.setResult; dsimp only; split <;> rfl
@[simp] theorem Part.setResult_lots (r : CmdResult) : (p.setResult r).lots = p.lots := by unfold Part.setResult; dsimp only; split <;> rfl
@[simp] theorem Part.setResult_recorder (r : CmdResult) : (p.setResult r).recorder = p.recorder := by unfold Part.setResult; dsimp only; split <;> rfl
@[simp] theorem Part.setResult_free (r : CmdResult) : (p.setResult r).free = p.free := by unfold Part.setResult; dsimp only; split <;> rfl

@[simp] theorem Part.flagDropped_intake (id : Half) : (p.flagDropped id).intake = p.intake := by unfold Part.flagDropped; dsimp only; split <;> rfl
@[simp] theorem Part.flagDropped_tracker (id : Half) : (p.flagDropped id).tracker = p.tracker := by unfold Part.flagDropped; dsimp only; split <;> rfl
@[simp] theorem Part.flagDropped_holes (id : Half) : (p.flagDropped id).holes = p.holes := by unfold Part.flagDropped; dsimp only; split <;> rfl
@[simp] theorem Part.flagDropped_sched (id : Half) : (p.flagDropped id).sched = p.sched := by unfold Part.flagDropped; dsimp only; split <;> rfl
@[simp] theorem Part.flagDropped_head (id : Half) : (p.flagDropped id).head = p.head := by unfold Part.flagDropped; dsimp only; split <;> rfl
@[simp] theorem Part.flagDropped_belt (id : Half) : (p.flagDropped id).belt = p.belt := by unfold Part.flagDropped; dsimp only; split <;> rfl
@[simp] theorem Part.flagDropped_setup (id : Half) : (p.flagDropped id).setup = p.setup := by unfold Part.flagDropped; dsimp only; split <;> rfl
@[simp] theorem Part.flagDropped_recorder (id : Half) : (p.flagDropped id).recorder = p.recorder := by unfold Part.flagDropped; dsimp only; split <;> rfl
@[simp] theorem Part.flagDropped_dirty (id : Half) : (p.flagDropped id).dirty = p.dirty := by unfold Part.flagDropped; dsimp only; split <;> rfl
@[simp] theorem Part.flagDropped_free (id : Half) : (p.flagDropped id).free = p.free := by unfold Part.flagDropped; dsimp only; split <;> rfl

@[simp] theorem Part.modifyLot_intake (id : Half) (f : Lot → Lot) : (p.modifyLot id f).intake = p.intake := by unfold Part.modifyLot; dsimp only; split <;> rfl
@[simp] theorem Part.modifyLot_tracker (id : Half) (f : Lot → Lot) : (p.modifyLot id f).tracker = p.tracker := by unfold Part.modifyLot; dsimp only; split <;> rfl
@[simp] theorem Part.modifyLot_holes (id : Half) (f : Lot → Lot) : (p.modifyLot id f).holes = p.holes := by unfold Part.modifyLot; dsimp only; split <;> rfl
@[simp] theorem Part.modifyLot_sched (id : Half) (f : Lot → Lot) : (p.modifyLot id f).sched = p.sched := by unfold Part.modifyLot; dsimp only; split <;> rfl
@[simp] theorem Part.modifyLot_head (id : Half) (f : Lot → Lot) : (p.modifyLot id f).head = p.head := by unfold Part.modifyLot; dsimp only; split <;> rfl
@[simp] theorem Part.modifyLot_belt (id : Half) (f : Lot → Lot) : (p.modifyLot id f).belt = p.belt := by unfold Part.modifyLot; dsimp only; split <;> rfl
@[simp] theorem Part.modifyLot_setup (id : Half) (f : Lot → Lot) : (p.modifyLot id f).setup = p.setup := by unfold Part.modifyLot; dsimp only; split <;> rfl
@[simp] theorem Part.modifyLot_recorder (id : Half) (f : Lot → Lot) : (p.modifyLot id f).recorder = p.recorder := by unfold Part.modifyLot; dsimp only; split <;> rfl
@[simp] theorem Part.modifyLot_dirty (id : Half) (f : Lot → Lot) : (p.modifyLot id f).dirty = p.dirty := by unfold Part.modifyLot; dsimp only; split <;> rfl
@[simp] theorem Part.modifyLot_free (id : Half) (f : Lot → Lot) : (p.modifyLot id f).free = p.free := by unfold Part.modifyLot; dsimp only; split <;> rfl

@[simp] theorem State.onPart_path (f : Part → Part) : (s.onPart f).path = s.path := rfl
@[simp] theorem State.onPart_pending (f : Part → Part) : (s.onPart f).pending = s.pending := rfl
@[simp] theorem State.onPart_part (f : Part → Part) : (s.onPart f).part = f s.part := rfl
@[simp] theorem State.post_part (a : BitVec 24) (d : Word) : (s.post a d).part = s.part := rfl
@[simp] theorem State.post_pending (a : BitVec 24) (d : Word) : (s.post a d).pending = s.pending := rfl
@[simp] theorem State.post_path_base (a : BitVec 24) (d : Word) : (s.post a d).path.base = s.path.base := rfl
@[simp] theorem State.post_path_port (a : BitVec 24) (d : Word) : (s.post a d).path.port = s.path.port := rfl
@[simp] theorem State.post_path_fairness (a : BitVec 24) (d : Word) : (s.post a d).path.fairness = s.path.fairness := rfl
@[simp] theorem State.post_path_turn (a : BitVec 24) (d : Word) : (s.post a d).path.turn = s.path.turn := rfl
@[simp] theorem State.post_path_lineData (a : BitVec 24) (d : Word) : (s.post a d).path.lineData = s.path.lineData := rfl
@[simp] theorem State.post_path_ram (a : BitVec 24) (d : Word) : (s.post a d).path.ram = s.path.ram := rfl
@[simp] theorem State.post_path_queue (a : BitVec 24) (d : Word) :
    (s.post a d).path.queue = s.path.queue ++ [{ addr := a, data := d }] := rfl
@[simp] theorem State.issue_part (t : Transaction) : (s.issue t).part = s.part := rfl
@[simp] theorem State.issue_pending (t : Transaction) : (s.issue t).pending = s.pending := rfl
@[simp] theorem State.issue_ram (t : Transaction) : (s.issue t).path.ram = s.path.ram := rfl
@[simp] theorem State.issue_queue (t : Transaction) : (s.issue t).path.queue = s.path.queue := rfl
@[simp] theorem State.powerOn_pending (straps : BitVec 3) : (s.powerOn straps).pending = s.pending := rfl
@[simp] theorem State.powerOn_ram (straps : BitVec 3) : (s.powerOn straps).path.ram = s.path.ram := rfl
@[simp] theorem Part.mark_dirty (w : Nat) : (p.mark w).dirty = insertRising w p.dirty := rfl

end Sys2Proof.Machine
end

