-- ==== Sys2Proof/Laws/Dispatch.lean ====
section
/-! SUPPORT. What exec is on each command, one lemma per constructor, and what the commands that act inside the part answer. -/

namespace Sys2Proof.Machine

variable (s : State)

@[simp] theorem exec_powerOnReset (straps : BitVec 3) :
    exec (.powerOnReset straps) s = execPowerOnReset straps s := rfl

@[simp] theorem exec_upstreamTransaction (request : Option Transaction) (pause : Option Nat) :
    exec (.upstreamTransaction request pause) s = execUpstreamTransaction request pause s := rfl

@[simp] theorem exec_postedWordWrite :
    exec .postedWordWrite s = execPostedWordWrite s := rfl

@[simp] theorem exec_partWordComplete :
    exec .partWordComplete s = execPartWordComplete s := rfl

@[simp] theorem exec_beamWordWrite (slot : BitVec 6) (offset : BitVec 6) (en : Lanes) (data : Word) :
    exec (.beamWordWrite slot offset en data) s = execBeamWordWrite slot offset en data s := rfl

@[simp] theorem exec_headerWrite (slot : BitVec 6) (en : Lanes) (data : Word) :
    exec (.headerWrite slot en data) s = execHeaderWrite slot en data s := rfl

@[simp] theorem exec_rowPass (units : Option Nat) :
    exec (.rowPass units) s = execRowPass units s := rfl

@[simp] theorem exec_recordMoveOut :
    exec .recordMoveOut s = execRecordMoveOut s := rfl

@[simp] theorem exec_recordWordHandIn :
    exec .recordWordHandIn s = execRecordWordHandIn s := rfl

@[simp] theorem exec_producerIndexHandIn :
    exec .producerIndexHandIn s = execProducerIndexHandIn s := rfl

@[simp] theorem exec_statusWordPost :
    exec .statusWordPost s = execStatusWordPost s := rfl

@[simp] theorem exec_setupWordWrite (word : BitVec 7) (en : Lanes) (data : Word) :
    exec (.setupWordWrite word en data) s = execSetupWordWrite word en data s := rfl

@[simp] theorem exec_argumentWordWrite (which : ArgWord) (en : Lanes) (data : Word) :
    exec (.argumentWordWrite which en data) s = execArgumentWordWrite which en data s := rfl

@[simp] theorem exec_consumerIndexWrite (en : Lanes) (data : Word) :
    exec (.consumerIndexWrite en data) s = execConsumerIndexWrite en data s := rfl

@[simp] theorem exec_statusBlockWrite (word : BitVec 6) :
    exec (.statusBlockWrite word) s = execStatusBlockWrite word s := rfl

@[simp] theorem exec_markWindowMatch (write : Bool) (wordAddr : BitVec 22) (en : Lanes) (data : Word) :
    exec (.markWindowMatch write wordAddr en data) s = execMarkWindowMatch write wordAddr en data s := rfl

@[simp] theorem exec_commit (tag : Half) :
    exec (.commit tag) s = execCommit tag s := rfl

@[simp] theorem exec_lotNext (tag : Half) :
    exec (.lotNext tag) s = execLotNext tag s := rfl

@[simp] theorem exec_manualEnter (tag : Half) :
    exec (.manualEnter tag) s = execManualEnter tag s := rfl

@[simp] theorem exec_clearSticky (tag : Half) :
    exec (.clearSticky tag) s = execClearSticky tag s := rfl

@[simp] theorem exec_headReset (tag : Half) :
    exec (.headReset tag) s = execHeadReset tag s := rfl

@[simp] theorem exec_parkNow (tag : Half) :
    exec (.parkNow tag) s = execParkNow tag s := rfl

@[simp] theorem exec_restart (tag : Half) :
    exec (.restart tag) s = execRestart tag s := rfl

@[simp] theorem exec_unknownCommand (code : BitVec 4) (tag : Half) :
    exec (.unknownCommand code tag) s = execUnknownCommand code tag s := rfl

@[simp] theorem exec_haltTimerExpiry :
    exec .haltTimerExpiry s = execHaltTimerExpiry s := rfl

@[simp] theorem exec_parkTimerExpiry :
    exec .parkTimerExpiry s = execParkTimerExpiry s := rfl

@[simp] theorem exec_frameBoundary :
    exec .frameBoundary s = execFrameBoundary s := rfl

@[simp] theorem exec_frameEnd (c : BitVec 16) (w1 : BitVec 16) (w2 : BitVec 16) (w3 : BitVec 16) (w4 : BitVec 16) (h : BitVec 16) :
    exec (.frameEnd c w1 w2 w3 w4 h) s = execFrameEnd c w1 w2 w3 w4 h s := rfl

@[simp] theorem exec_noStrike :
    exec .noStrike s = execNoStrike s := rfl

theorem step_cons (c : Instr) (rest : List Instr) (h : s.pending = c :: rest) :
    step s = exec c { s with pending := rest } := by
  unfold step; rw [h]

theorem step_nil (h : s.pending = []) : step s = .next { s with part := s.part.tick } := by
  unfold step; rw [h]

end Sys2Proof.Machine
end

