-- ==== Sys2Proof/Laws/Frames.lean ====
section
/-! SUPPORT. What each shared operation leaves alone, block by block: the only fields of the part that an operation may change are
the ones without a lemma here. -/

namespace Sys2Proof.Machine

set_option linter.unusedTactic false
set_option linter.unnecessarySeqFocus false

variable (p : Part)

@[simp] theorem Part.dropRecord_intake (r : Record) : (p.dropRecord r).intake = p.intake := by unfold Part.dropRecord; cases r <;> simp
@[simp] theorem Part.dropRecord_tracker (r : Record) : (p.dropRecord r).tracker = p.tracker := by unfold Part.dropRecord; cases r <;> simp
@[simp] theorem Part.dropRecord_holes (r : Record) : (p.dropRecord r).holes = p.holes := by unfold Part.dropRecord; cases r <;> simp
@[simp] theorem Part.dropRecord_sched (r : Record) : (p.dropRecord r).sched = p.sched := by unfold Part.dropRecord; cases r <;> simp
@[simp] theorem Part.dropRecord_head (r : Record) : (p.dropRecord r).head = p.head := by unfold Part.dropRecord; cases r <;> simp
@[simp] theorem Part.dropRecord_belt (r : Record) : (p.dropRecord r).belt = p.belt := by unfold Part.dropRecord; cases r <;> simp
@[simp] theorem Part.dropRecord_setup (r : Record) : (p.dropRecord r).setup = p.setup := by unfold Part.dropRecord; cases r <;> simp
@[simp] theorem Part.dropRecord_free (r : Record) : (p.dropRecord r).free = p.free := by unfold Part.dropRecord; cases r <;> simp

@[simp] theorem Part.emit_intake (r : Record) : (p.emit r).intake = p.intake := by unfold Part.emit; (try dsimp only); (repeat' split) <;> simp
@[simp] theorem Part.emit_tracker (r : Record) : (p.emit r).tracker = p.tracker := by unfold Part.emit; (try dsimp only); (repeat' split) <;> simp
@[simp] theorem Part.emit_holes (r : Record) : (p.emit r).holes = p.holes := by unfold Part.emit; (try dsimp only); (repeat' split) <;> simp
@[simp] theorem Part.emit_sched (r : Record) : (p.emit r).sched = p.sched := by unfold Part.emit; (try dsimp only); (repeat' split) <;> simp
@[simp] theorem Part.emit_head (r : Record) : (p.emit r).head = p.head := by unfold Part.emit; (try dsimp only); (repeat' split) <;> simp
@[simp] theorem Part.emit_belt (r : Record) : (p.emit r).belt = p.belt := by unfold Part.emit; (try dsimp only); (repeat' split) <;> simp
@[simp] theorem Part.emit_setup (r : Record) : (p.emit r).setup = p.setup := by unfold Part.emit; (try dsimp only); (repeat' split) <;> simp
@[simp] theorem Part.emit_free (r : Record) : (p.emit r).free = p.free := by unfold Part.emit; (try dsimp only); (repeat' split) <;> simp

@[simp] theorem Part.raise_intake (k : EventKind) (a : Word) : (p.raise k a).intake = p.intake := by unfold Part.raise; (try dsimp only); (repeat' split) <;> simp
@[simp] theorem Part.raise_tracker (k : EventKind) (a : Word) : (p.raise k a).tracker = p.tracker := by unfold Part.raise; (try dsimp only); (repeat' split) <;> simp
@[simp] theorem Part.raise_holes (k : EventKind) (a : Word) : (p.raise k a).holes = p.holes := by unfold Part.raise; (try dsimp only); (repeat' split) <;> simp
@[simp] theorem Part.raise_sched (k : EventKind) (a : Word) : (p.raise k a).sched = p.sched := by unfold Part.raise; (try dsimp only); (repeat' split) <;> simp
@[simp] theorem Part.raise_head (k : EventKind) (a : Word) : (p.raise k a).head = p.head := by unfold Part.raise; (try dsimp only); (repeat' split) <;> simp
@[simp] theorem Part.raise_belt (k : EventKind) (a : Word) : (p.raise k a).belt = p.belt := by unfold Part.raise; (try dsimp only); (repeat' split) <;> simp
@[simp] theorem Part.raise_setup (k : EventKind) (a : Word) : (p.raise k a).setup = p.setup := by unfold Part.raise; (try dsimp only); (repeat' split) <;> simp
@[simp] theorem Part.raise_free (k : EventKind) (a : Word) : (p.raise k a).free = p.free := by unfold Part.raise; (try dsimp only); (repeat' split) <;> simp

@[simp] theorem Part.release_intake (i : HideInfo) (o : StampOutcome) (x : Option Word) : (p.release i o x).intake = p.intake := by unfold Part.release; (try dsimp only); (repeat' split) <;> simp
@[simp] theorem Part.release_tracker (i : HideInfo) (o : StampOutcome) (x : Option Word) : (p.release i o x).tracker = p.tracker := by unfold Part.release; (try dsimp only); (repeat' split) <;> simp
@[simp] theorem Part.release_holes (i : HideInfo) (o : StampOutcome) (x : Option Word) : (p.release i o x).holes = p.holes := by unfold Part.release; (try dsimp only); (repeat' split) <;> simp
@[simp] theorem Part.release_sched (i : HideInfo) (o : StampOutcome) (x : Option Word) : (p.release i o x).sched = p.sched := by unfold Part.release; (try dsimp only); (repeat' split) <;> simp
@[simp] theorem Part.release_head (i : HideInfo) (o : StampOutcome) (x : Option Word) : (p.release i o x).head = p.head := by unfold Part.release; (try dsimp only); (repeat' split) <;> simp
@[simp] theorem Part.release_belt (i : HideInfo) (o : StampOutcome) (x : Option Word) : (p.release i o x).belt = p.belt := by unfold Part.release; (try dsimp only); (repeat' split) <;> simp
@[simp] theorem Part.release_setup (i : HideInfo) (o : StampOutcome) (x : Option Word) : (p.release i o x).setup = p.setup := by unfold Part.release; (try dsimp only); (repeat' split) <;> simp
@[simp] theorem Part.release_free (i : HideInfo) (o : StampOutcome) (x : Option Word) : (p.release i o x).free = p.free := by unfold Part.release; (try dsimp only); (repeat' split) <;> simp

@[simp] theorem Part.lotTransition_intake (id : Half) (b : Bool) : (p.lotTransition id b).intake = p.intake := by unfold Part.lotTransition; (try dsimp only); (repeat' split) <;> simp
@[simp] theorem Part.lotTransition_tracker (id : Half) (b : Bool) : (p.lotTransition id b).tracker = p.tracker := by unfold Part.lotTransition; (try dsimp only); (repeat' split) <;> simp
@[simp] theorem Part.lotTransition_holes (id : Half) (b : Bool) : (p.lotTransition id b).holes = p.holes := by unfold Part.lotTransition; (try dsimp only); (repeat' split) <;> simp
@[simp] theorem Part.lotTransition_sched (id : Half) (b : Bool) : (p.lotTransition id b).sched = p.sched := by unfold Part.lotTransition; (try dsimp only); (repeat' split) <;> simp
@[simp] theorem Part.lotTransition_head (id : Half) (b : Bool) : (p.lotTransition id b).head = p.head := by unfold Part.lotTransition; (try dsimp only); (repeat' split) <;> simp
@[simp] theorem Part.lotTransition_belt (id : Half) (b : Bool) : (p.lotTransition id b).belt = p.belt := by unfold Part.lotTransition; (try dsimp only); (repeat' split) <;> simp
@[simp] theorem Part.lotTransition_recorder (id : Half) (b : Bool) : (p.lotTransition id b).recorder = p.recorder := by unfold Part.lotTransition; (try dsimp only); (repeat' split) <;> simp
@[simp] theorem Part.lotTransition_free (id : Half) (b : Bool) : (p.lotTransition id b).free = p.free := by unfold Part.lotTransition; (try dsimp only); (repeat' split) <;> simp

@[simp] theorem Part.packTransition_intake : (p.packTransition).intake = p.intake := by unfold Part.packTransition; (try dsimp only); (repeat' split) <;> simp
@[simp] theorem Part.packTransition_tracker : (p.packTransition).tracker = p.tracker := by unfold Part.packTransition; (try dsimp only); (repeat' split) <;> simp
@[simp] theorem Part.packTransition_holes : (p.packTransition).holes = p.holes := by unfold Part.packTransition; (try dsimp only); (repeat' split) <;> simp
@[simp] theorem Part.packTransition_sched : (p.packTransition).sched = p.sched := by unfold Part.packTransition; (try dsimp only); (repeat' split) <;> simp
@[simp] theorem Part.packTransition_head : (p.packTransition).head = p.head := by unfold Part.packTransition; (try dsimp only); (repeat' split) <;> simp
@[simp] theorem Part.packTransition_belt : (p.packTransition).belt = p.belt := by unfold Part.packTransition; (try dsimp only); (repeat' split) <;> simp
@[simp] theorem Part.packTransition_recorder : (p.packTransition).recorder = p.recorder := by unfold Part.packTransition; (try dsimp only); (repeat' split) <;> simp
@[simp] theorem Part.packTransition_free : (p.packTransition).free = p.free := by unfold Part.packTransition; (try dsimp only); (repeat' split) <;> simp

@[simp] theorem Part.closeLotIfEmpty_intake : (p.closeLotIfEmpty).intake = p.intake := by unfold Part.closeLotIfEmpty; (try dsimp only); (repeat' split) <;> simp
@[simp] theorem Part.closeLotIfEmpty_tracker : (p.closeLotIfEmpty).tracker = p.tracker := by unfold Part.closeLotIfEmpty; (try dsimp only); (repeat' split) <;> simp
@[simp] theorem Part.closeLotIfEmpty_holes : (p.closeLotIfEmpty).holes = p.holes := by unfold Part.closeLotIfEmpty; (try dsimp only); (repeat' split) <;> simp
@[simp] theorem Part.closeLotIfEmpty_sched : (p.closeLotIfEmpty).sched = p.sched := by unfold Part.closeLotIfEmpty; (try dsimp only); (repeat' split) <;> simp
@[simp] theorem Part.closeLotIfEmpty_head : (p.closeLotIfEmpty).head = p.head := by unfold Part.closeLotIfEmpty; (try dsimp only); (repeat' split) <;> simp
@[simp] theorem Part.closeLotIfEmpty_belt : (p.closeLotIfEmpty).belt = p.belt := by unfold Part.closeLotIfEmpty; (try dsimp only); (repeat' split) <;> simp
@[simp] theorem Part.closeLotIfEmpty_setup : (p.closeLotIfEmpty).setup = p.setup := by unfold Part.closeLotIfEmpty; (try dsimp only); (repeat' split) <;> simp
@[simp] theorem Part.closeLotIfEmpty_free : (p.closeLotIfEmpty).free = p.free := by unfold Part.closeLotIfEmpty; (try dsimp only); (repeat' split) <;> simp

@[simp] theorem Part.takePackPending_intake : (p.takePackPending).intake = p.intake := by unfold Part.takePackPending; (try dsimp only); (repeat' split) <;> simp
@[simp] theorem Part.takePackPending_tracker : (p.takePackPending).tracker = p.tracker := by unfold Part.takePackPending; (try dsimp only); (repeat' split) <;> simp
@[simp] theorem Part.takePackPending_holes : (p.takePackPending).holes = p.holes := by unfold Part.takePackPending; (try dsimp only); (repeat' split) <;> simp
@[simp] theorem Part.takePackPending_sched : (p.takePackPending).sched = p.sched := by unfold Part.takePackPending; (try dsimp only); (repeat' split) <;> simp
@[simp] theorem Part.takePackPending_head : (p.takePackPending).head = p.head := by unfold Part.takePackPending; (try dsimp only); (repeat' split) <;> simp
@[simp] theorem Part.takePackPending_belt : (p.takePackPending).belt = p.belt := by unfold Part.takePackPending; (try dsimp only); (repeat' split) <;> simp
@[simp] theorem Part.takePackPending_recorder : (p.takePackPending).recorder = p.recorder := by unfold Part.takePackPending; (try dsimp only); (repeat' split) <;> simp
@[simp] theorem Part.takePackPending_free : (p.takePackPending).free = p.free := by unfold Part.takePackPending; (try dsimp only); (repeat' split) <;> simp

@[simp] theorem Part.closingTest_intake : (p.closingTest).intake = p.intake := by unfold Part.closingTest; (try dsimp only); (repeat' split) <;> simp
@[simp] theorem Part.closingTest_tracker : (p.closingTest).tracker = p.tracker := by unfold Part.closingTest; (try dsimp only); (repeat' split) <;> simp
@[simp] theorem Part.closingTest_holes : (p.closingTest).holes = p.holes := by unfold Part.closingTest; (try dsimp only); (repeat' split) <;> simp
@[simp] theorem Part.closingTest_sched : (p.closingTest).sched = p.sched := by unfold Part.closingTest; (try dsimp only); (repeat' split) <;> simp
@[simp] theorem Part.closingTest_head : (p.closingTest).head = p.head := by unfold Part.closingTest; (try dsimp only); (repeat' split) <;> simp
@[simp] theorem Part.closingTest_belt : (p.closingTest).belt = p.belt := by unfold Part.closingTest; (try dsimp only); (repeat' split) <;> simp
@[simp] theorem Part.closingTest_free : (p.closingTest).free = p.free := by unfold Part.closingTest; (try dsimp only); (repeat' split) <;> simp

@[simp] theorem Part.closingTestFor_intake (id : Half) : (p.closingTestFor id).intake = p.intake := by unfold Part.closingTestFor; (try dsimp only); (repeat' split) <;> simp
@[simp] theorem Part.closingTestFor_tracker (id : Half) : (p.closingTestFor id).tracker = p.tracker := by unfold Part.closingTestFor; (try dsimp only); (repeat' split) <;> simp
@[simp] theorem Part.closingTestFor_holes (id : Half) : (p.closingTestFor id).holes = p.holes := by unfold Part.closingTestFor; (try dsimp only); (repeat' split) <;> simp
@[simp] theorem Part.closingTestFor_sched (id : Half) : (p.closingTestFor id).sched = p.sched := by unfold Part.closingTestFor; (try dsimp only); (repeat' split) <;> simp
@[simp] theorem Part.closingTestFor_head (id : Half) : (p.closingTestFor id).head = p.head := by unfold Part.closingTestFor; (try dsimp only); (repeat' split) <;> simp
@[simp] theorem Part.closingTestFor_belt (id : Half) : (p.closingTestFor id).belt = p.belt := by unfold Part.closingTestFor; (try dsimp only); (repeat' split) <;> simp
@[simp] theorem Part.closingTestFor_free (id : Half) : (p.closingTestFor id).free = p.free := by unfold Part.closingTestFor; (try dsimp only); (repeat' split) <;> simp

@[simp] theorem Part.markRecord_intake (w : Nat) (d h : Word) (b : Option Half) (a : Bool) (l : Half) : (p.markRecord w d h b a l).intake = p.intake := by unfold Part.markRecord; (try dsimp only); (repeat' split) <;> simp
@[simp] theorem Part.markRecord_tracker (w : Nat) (d h : Word) (b : Option Half) (a : Bool) (l : Half) : (p.markRecord w d h b a l).tracker = p.tracker := by unfold Part.markRecord; (try dsimp only); (repeat' split) <;> simp
@[simp] theorem Part.markRecord_holes (w : Nat) (d h : Word) (b : Option Half) (a : Bool) (l : Half) : (p.markRecord w d h b a l).holes = p.holes := by unfold Part.markRecord; (try dsimp only); (repeat' split) <;> simp
@[simp] theorem Part.markRecord_sched (w : Nat) (d h : Word) (b : Option Half) (a : Bool) (l : Half) : (p.markRecord w d h b a l).sched = p.sched := by unfold Part.markRecord; (try dsimp only); (repeat' split) <;> simp
@[simp] theorem Part.markRecord_head (w : Nat) (d h : Word) (b : Option Half) (a : Bool) (l : Half) : (p.markRecord w d h b a l).head = p.head := by unfold Part.markRecord; (try dsimp only); (repeat' split) <;> simp
@[simp] theorem Part.markRecord_belt (w : Nat) (d h : Word) (b : Option Half) (a : Bool) (l : Half) : (p.markRecord w d h b a l).belt = p.belt := by unfold Part.markRecord; (try dsimp only); (repeat' split) <;> simp
@[simp] theorem Part.markRecord_setup (w : Nat) (d h : Word) (b : Option Half) (a : Bool) (l : Half) : (p.markRecord w d h b a l).setup = p.setup := by unfold Part.markRecord; (try dsimp only); (repeat' split) <;> simp
@[simp] theorem Part.markRecord_free (w : Nat) (d h : Word) (b : Option Half) (a : Bool) (l : Half) : (p.markRecord w d h b a l).free = p.free := by unfold Part.markRecord; (try dsimp only); (repeat' split) <;> simp

@[simp] theorem Part.resolveMark_intake (m : Mark) : (p.resolveMark m).intake = p.intake := by unfold Part.resolveMark; (try dsimp only); (repeat' split) <;> simp
@[simp] theorem Part.resolveMark_tracker (m : Mark) : (p.resolveMark m).tracker = p.tracker := by unfold Part.resolveMark; (try dsimp only); (repeat' split) <;> simp
@[simp] theorem Part.resolveMark_holes (m : Mark) : (p.resolveMark m).holes = p.holes := by unfold Part.resolveMark; (try dsimp only); (repeat' split) <;> simp
@[simp] theorem Part.resolveMark_sched (m : Mark) : (p.resolveMark m).sched = p.sched := by unfold Part.resolveMark; (try dsimp only); (repeat' split) <;> simp
@[simp] theorem Part.resolveMark_head (m : Mark) : (p.resolveMark m).head = p.head := by unfold Part.resolveMark; (try dsimp only); (repeat' split) <;> simp
@[simp] theorem Part.resolveMark_belt (m : Mark) : (p.resolveMark m).belt = p.belt := by unfold Part.resolveMark; (try dsimp only); (repeat' split) <;> simp
@[simp] theorem Part.resolveMark_setup (m : Mark) : (p.resolveMark m).setup = p.setup := by unfold Part.resolveMark; (try dsimp only); (repeat' split) <;> simp
@[simp] theorem Part.resolveMark_free (m : Mark) : (p.resolveMark m).free = p.free := by unfold Part.resolveMark; (try dsimp only); (repeat' split) <;> simp

@[simp] theorem Part.dropMark_intake : (p.dropMark).intake = p.intake := by unfold Part.dropMark; (try dsimp only); (repeat' split) <;> simp
@[simp] theorem Part.dropMark_tracker : (p.dropMark).tracker = p.tracker := by unfold Part.dropMark; (try dsimp only); (repeat' split) <;> simp
@[simp] theorem Part.dropMark_holes : (p.dropMark).holes = p.holes := by unfold Part.dropMark; (try dsimp only); (repeat' split) <;> simp
@[simp] theorem Part.dropMark_sched : (p.dropMark).sched = p.sched := by unfold Part.dropMark; (try dsimp only); (repeat' split) <;> simp
@[simp] theorem Part.dropMark_head : (p.dropMark).head = p.head := by unfold Part.dropMark; (try dsimp only); (repeat' split) <;> simp
@[simp] theorem Part.dropMark_belt : (p.dropMark).belt = p.belt := by unfold Part.dropMark; (try dsimp only); (repeat' split) <;> simp
@[simp] theorem Part.dropMark_setup : (p.dropMark).setup = p.setup := by unfold Part.dropMark; (try dsimp only); (repeat' split) <;> simp
@[simp] theorem Part.dropMark_recorder : (p.dropMark).recorder = p.recorder := by unfold Part.dropMark; (try dsimp only); (repeat' split) <;> simp
@[simp] theorem Part.dropMark_free : (p.dropMark).free = p.free := by unfold Part.dropMark; (try dsimp only); (repeat' split) <;> simp

@[simp] theorem Part.placeMark_intake (m : Mark) : (p.placeMark m).intake = p.intake := by unfold Part.placeMark; (try dsimp only); (repeat' split) <;> simp
@[simp] theorem Part.placeMark_tracker (m : Mark) : (p.placeMark m).tracker = p.tracker := by unfold Part.placeMark; (try dsimp only); (repeat' split) <;> simp
@[simp] theorem Part.placeMark_holes (m : Mark) : (p.placeMark m).holes = p.holes := by unfold Part.placeMark; (try dsimp only); (repeat' split) <;> simp
@[simp] theorem Part.placeMark_sched (m : Mark) : (p.placeMark m).sched = p.sched := by unfold Part.placeMark; (try dsimp only); (repeat' split) <;> simp
@[simp] theorem Part.placeMark_head (m : Mark) : (p.placeMark m).head = p.head := by unfold Part.placeMark; (try dsimp only); (repeat' split) <;> simp
@[simp] theorem Part.placeMark_belt (m : Mark) : (p.placeMark m).belt = p.belt := by unfold Part.placeMark; (try dsimp only); (repeat' split) <;> simp
@[simp] theorem Part.placeMark_setup (m : Mark) : (p.placeMark m).setup = p.setup := by unfold Part.placeMark; (try dsimp only); (repeat' split) <;> simp
@[simp] theorem Part.placeMark_free (m : Mark) : (p.placeMark m).free = p.free := by unfold Part.placeMark; (try dsimp only); (repeat' split) <;> simp

@[simp] theorem Part.raiseMark_intake (w : Nat) (d : Word) : (p.raiseMark w d).intake = p.intake := by unfold Part.raiseMark; (try dsimp only); (repeat' split) <;> simp
@[simp] theorem Part.raiseMark_tracker (w : Nat) (d : Word) : (p.raiseMark w d).tracker = p.tracker := by unfold Part.raiseMark; (try dsimp only); (repeat' split) <;> simp
@[simp] theorem Part.raiseMark_holes (w : Nat) (d : Word) : (p.raiseMark w d).holes = p.holes := by unfold Part.raiseMark; (try dsimp only); (repeat' split) <;> simp
@[simp] theorem Part.raiseMark_sched (w : Nat) (d : Word) : (p.raiseMark w d).sched = p.sched := by unfold Part.raiseMark; (try dsimp only); (repeat' split) <;> simp
@[simp] theorem Part.raiseMark_head (w : Nat) (d : Word) : (p.raiseMark w d).head = p.head := by unfold Part.raiseMark; (try dsimp only); (repeat' split) <;> simp
@[simp] theorem Part.raiseMark_belt (w : Nat) (d : Word) : (p.raiseMark w d).belt = p.belt := by unfold Part.raiseMark; (try dsimp only); (repeat' split) <;> simp
@[simp] theorem Part.raiseMark_setup (w : Nat) (d : Word) : (p.raiseMark w d).setup = p.setup := by unfold Part.raiseMark; (try dsimp only); (repeat' split) <;> simp
@[simp] theorem Part.raiseMark_free (w : Nat) (d : Word) : (p.raiseMark w d).free = p.free := by unfold Part.raiseMark; (try dsimp only); (repeat' split) <;> simp

@[simp] theorem Part.reexamine_intake (ms : List Mark) : (p.reexamine ms).intake = p.intake := by
  induction ms generalizing p with
  | nil => rfl
  | cons m ms ih => unfold Part.reexamine; split <;> simp [ih]
@[simp] theorem Part.reexamine_tracker (ms : List Mark) : (p.reexamine ms).tracker = p.tracker := by
  induction ms generalizing p with
  | nil => rfl
  | cons m ms ih => unfold Part.reexamine; split <;> simp [ih]
@[simp] theorem Part.reexamine_holes (ms : List Mark) : (p.reexamine ms).holes = p.holes := by
  induction ms generalizing p with
  | nil => rfl
  | cons m ms ih => unfold Part.reexamine; split <;> simp [ih]
@[simp] theorem Part.reexamine_sched (ms : List Mark) : (p.reexamine ms).sched = p.sched := by
  induction ms generalizing p with
  | nil => rfl
  | cons m ms ih => unfold Part.reexamine; split <;> simp [ih]
@[simp] theorem Part.reexamine_head (ms : List Mark) : (p.reexamine ms).head = p.head := by
  induction ms generalizing p with
  | nil => rfl
  | cons m ms ih => unfold Part.reexamine; split <;> simp [ih]
@[simp] theorem Part.reexamine_belt (ms : List Mark) : (p.reexamine ms).belt = p.belt := by
  induction ms generalizing p with
  | nil => rfl
  | cons m ms ih => unfold Part.reexamine; split <;> simp [ih]
@[simp] theorem Part.reexamine_setup (ms : List Mark) : (p.reexamine ms).setup = p.setup := by
  induction ms generalizing p with
  | nil => rfl
  | cons m ms ih => unfold Part.reexamine; split <;> simp [ih]
@[simp] theorem Part.reexamine_free (ms : List Mark) : (p.reexamine ms).free = p.free := by
  induction ms generalizing p with
  | nil => rfl
  | cons m ms ih => unfold Part.reexamine; split <;> simp [ih]

@[simp] theorem Part.reexamineMarks_intake : (p.reexamineMarks).intake = p.intake := by unfold Part.reexamineMarks; (try dsimp only); (repeat' split) <;> simp
@[simp] theorem Part.reexamineMarks_tracker : (p.reexamineMarks).tracker = p.tracker := by unfold Part.reexamineMarks; (try dsimp only); (repeat' split) <;> simp
@[simp] theorem Part.reexamineMarks_holes : (p.reexamineMarks).holes = p.holes := by unfold Part.reexamineMarks; (try dsimp only); (repeat' split) <;> simp
@[simp] theorem Part.reexamineMarks_sched : (p.reexamineMarks).sched = p.sched := by unfold Part.reexamineMarks; (try dsimp only); (repeat' split) <;> simp
@[simp] theorem Part.reexamineMarks_head : (p.reexamineMarks).head = p.head := by unfold Part.reexamineMarks; (try dsimp only); (repeat' split) <;> simp
@[simp] theorem Part.reexamineMarks_belt : (p.reexamineMarks).belt = p.belt := by unfold Part.reexamineMarks; (try dsimp only); (repeat' split) <;> simp
@[simp] theorem Part.reexamineMarks_setup : (p.reexamineMarks).setup = p.setup := by unfold Part.reexamineMarks; (try dsimp only); (repeat' split) <;> simp
@[simp] theorem Part.reexamineMarks_free : (p.reexamineMarks).free = p.free := by unfold Part.reexamineMarks; (try dsimp only); (repeat' split) <;> simp

@[simp] theorem Part.setSticky_intake (b : BitVec 4) : (p.setSticky b).intake = p.intake := by unfold Part.setSticky; (try dsimp only); (repeat' split) <;> simp
@[simp] theorem Part.setSticky_tracker (b : BitVec 4) : (p.setSticky b).tracker = p.tracker := by unfold Part.setSticky; (try dsimp only); (repeat' split) <;> simp
@[simp] theorem Part.setSticky_holes (b : BitVec 4) : (p.setSticky b).holes = p.holes := by unfold Part.setSticky; (try dsimp only); (repeat' split) <;> simp
@[simp] theorem Part.setSticky_sched (b : BitVec 4) : (p.setSticky b).sched = p.sched := by unfold Part.setSticky; (try dsimp only); (repeat' split) <;> simp
@[simp] theorem Part.setSticky_head (b : BitVec 4) : (p.setSticky b).head = p.head := by unfold Part.setSticky; (try dsimp only); (repeat' split) <;> simp
@[simp] theorem Part.setSticky_belt (b : BitVec 4) : (p.setSticky b).belt = p.belt := by unfold Part.setSticky; (try dsimp only); (repeat' split) <;> simp
@[simp] theorem Part.setSticky_setup (b : BitVec 4) : (p.setSticky b).setup = p.setup := by unfold Part.setSticky; (try dsimp only); (repeat' split) <;> simp
@[simp] theorem Part.setSticky_recorder (b : BitVec 4) : (p.setSticky b).recorder = p.recorder := by unfold Part.setSticky; (try dsimp only); (repeat' split) <;> simp
@[simp] theorem Part.setSticky_free (b : BitVec 4) : (p.setSticky b).free = p.free := by unfold Part.setSticky; (try dsimp only); (repeat' split) <;> simp

@[simp] theorem Part.clearSticky_intake : (p.clearSticky).intake = p.intake := by unfold Part.clearSticky; (try dsimp only); (repeat' split) <;> simp
@[simp] theorem Part.clearSticky_tracker : (p.clearSticky).tracker = p.tracker := by unfold Part.clearSticky; (try dsimp only); (repeat' split) <;> simp
@[simp] theorem Part.clearSticky_holes : (p.clearSticky).holes = p.holes := by unfold Part.clearSticky; (try dsimp only); (repeat' split) <;> simp
@[simp] theorem Part.clearSticky_sched : (p.clearSticky).sched = p.sched := by unfold Part.clearSticky; (try dsimp only); (repeat' split) <;> simp
@[simp] theorem Part.clearSticky_head : (p.clearSticky).head = p.head := by unfold Part.clearSticky; (try dsimp only); (repeat' split) <;> simp
@[simp] theorem Part.clearSticky_belt : (p.clearSticky).belt = p.belt := by unfold Part.clearSticky; (try dsimp only); (repeat' split) <;> simp
@[simp] theorem Part.clearSticky_setup : (p.clearSticky).setup = p.setup := by unfold Part.clearSticky; (try dsimp only); (repeat' split) <;> simp
@[simp] theorem Part.clearSticky_recorder : (p.clearSticky).recorder = p.recorder := by unfold Part.clearSticky; (try dsimp only); (repeat' split) <;> simp
@[simp] theorem Part.clearSticky_free : (p.clearSticky).free = p.free := by unfold Part.clearSticky; (try dsimp only); (repeat' split) <;> simp

@[simp] theorem Part.answer_intake (t : Half) (c : BitVec 4) (r : ResultCode) : (p.answer t c r).intake = p.intake := by unfold Part.answer; (try dsimp only); (repeat' split) <;> simp
@[simp] theorem Part.answer_tracker (t : Half) (c : BitVec 4) (r : ResultCode) : (p.answer t c r).tracker = p.tracker := by unfold Part.answer; (try dsimp only); (repeat' split) <;> simp
@[simp] theorem Part.answer_holes (t : Half) (c : BitVec 4) (r : ResultCode) : (p.answer t c r).holes = p.holes := by unfold Part.answer; (try dsimp only); (repeat' split) <;> simp
@[simp] theorem Part.answer_sched (t : Half) (c : BitVec 4) (r : ResultCode) : (p.answer t c r).sched = p.sched := by unfold Part.answer; (try dsimp only); (repeat' split) <;> simp
@[simp] theorem Part.answer_head (t : Half) (c : BitVec 4) (r : ResultCode) : (p.answer t c r).head = p.head := by unfold Part.answer; (try dsimp only); (repeat' split) <;> simp
@[simp] theorem Part.answer_belt (t : Half) (c : BitVec 4) (r : ResultCode) : (p.answer t c r).belt = p.belt := by unfold Part.answer; (try dsimp only); (repeat' split) <;> simp
@[simp] theorem Part.answer_lots (t : Half) (c : BitVec 4) (r : ResultCode) : (p.answer t c r).lots = p.lots := by unfold Part.answer; (try dsimp only); (repeat' split) <;> simp
@[simp] theorem Part.answer_recorder (t : Half) (c : BitVec 4) (r : ResultCode) : (p.answer t c r).recorder = p.recorder := by unfold Part.answer; (try dsimp only); (repeat' split) <;> simp
@[simp] theorem Part.answer_free (t : Half) (c : BitVec 4) (r : ResultCode) : (p.answer t c r).free = p.free := by unfold Part.answer; (try dsimp only); (repeat' split) <;> simp

@[simp] theorem Part.applyGuarded_tracker (g : Guarded) : (p.applyGuarded g).tracker = p.tracker := by unfold Part.applyGuarded; (try dsimp only); (repeat' split) <;> simp
@[simp] theorem Part.applyGuarded_holes (g : Guarded) : (p.applyGuarded g).holes = p.holes := by unfold Part.applyGuarded; (try dsimp only); (repeat' split) <;> simp
@[simp] theorem Part.applyGuarded_sched (g : Guarded) : (p.applyGuarded g).sched = p.sched := by unfold Part.applyGuarded; (try dsimp only); (repeat' split) <;> simp
@[simp] theorem Part.applyGuarded_head (g : Guarded) : (p.applyGuarded g).head = p.head := by unfold Part.applyGuarded; (try dsimp only); (repeat' split) <;> simp
@[simp] theorem Part.applyGuarded_belt (g : Guarded) : (p.applyGuarded g).belt = p.belt := by unfold Part.applyGuarded; (try dsimp only); (repeat' split) <;> simp
@[simp] theorem Part.applyGuarded_recorder (g : Guarded) : (p.applyGuarded g).recorder = p.recorder := by unfold Part.applyGuarded; (try dsimp only); (repeat' split) <;> simp
@[simp] theorem Part.applyGuarded_dirty (g : Guarded) : (p.applyGuarded g).dirty = p.dirty := by unfold Part.applyGuarded; (try dsimp only); (repeat' split) <;> simp
@[simp] theorem Part.applyGuarded_free (g : Guarded) : (p.applyGuarded g).free = p.free := by unfold Part.applyGuarded; (try dsimp only); (repeat' split) <;> simp

@[simp] theorem Part.applySnapshotIfQuiet_tracker : (p.applySnapshotIfQuiet).tracker = p.tracker := by unfold Part.applySnapshotIfQuiet; (try dsimp only); (repeat' split) <;> simp
@[simp] theorem Part.applySnapshotIfQuiet_holes : (p.applySnapshotIfQuiet).holes = p.holes := by unfold Part.applySnapshotIfQuiet; (try dsimp only); (repeat' split) <;> simp
@[simp] theorem Part.applySnapshotIfQuiet_sched : (p.applySnapshotIfQuiet).sched = p.sched := by unfold Part.applySnapshotIfQuiet; (try dsimp only); (repeat' split) <;> simp
@[simp] theorem Part.applySnapshotIfQuiet_head : (p.applySnapshotIfQuiet).head = p.head := by unfold Part.applySnapshotIfQuiet; (try dsimp only); (repeat' split) <;> simp
@[simp] theorem Part.applySnapshotIfQuiet_belt : (p.applySnapshotIfQuiet).belt = p.belt := by unfold Part.applySnapshotIfQuiet; (try dsimp only); (repeat' split) <;> simp
@[simp] theorem Part.applySnapshotIfQuiet_free : (p.applySnapshotIfQuiet).free = p.free := by unfold Part.applySnapshotIfQuiet; (try dsimp only); (repeat' split) <;> simp

@[simp] theorem Part.takeNotice_intake : (p.takeNotice).intake = p.intake := rfl
@[simp] theorem Part.takeNotice_holes : (p.takeNotice).holes = p.holes := rfl
@[simp] theorem Part.takeNotice_sched : (p.takeNotice).sched = p.sched := rfl
@[simp] theorem Part.takeNotice_head : (p.takeNotice).head = p.head := rfl
@[simp] theorem Part.takeNotice_belt : (p.takeNotice).belt = p.belt := rfl
@[simp] theorem Part.takeNotice_lots : (p.takeNotice).lots = p.lots := rfl
@[simp] theorem Part.takeNotice_setup : (p.takeNotice).setup = p.setup := rfl
@[simp] theorem Part.takeNotice_recorder : (p.takeNotice).recorder = p.recorder := rfl
@[simp] theorem Part.takeNotice_dirty : (p.takeNotice).dirty = p.dirty := rfl
@[simp] theorem Part.takeNotice_free : (p.takeNotice).free = p.free := rfl

@[simp] theorem Part.giveNotice_intake : (p.giveNotice).intake = p.intake := by unfold Part.giveNotice; (try dsimp only); (repeat' split) <;> simp
@[simp] theorem Part.giveNotice_holes : (p.giveNotice).holes = p.holes := by unfold Part.giveNotice; (try dsimp only); (repeat' split) <;> simp
@[simp] theorem Part.giveNotice_sched : (p.giveNotice).sched = p.sched := by unfold Part.giveNotice; (try dsimp only); (repeat' split) <;> simp
@[simp] theorem Part.giveNotice_head : (p.giveNotice).head = p.head := by unfold Part.giveNotice; (try dsimp only); (repeat' split) <;> simp
@[simp] theorem Part.giveNotice_belt : (p.giveNotice).belt = p.belt := by unfold Part.giveNotice; (try dsimp only); (repeat' split) <;> simp
@[simp] theorem Part.giveNotice_lots : (p.giveNotice).lots = p.lots := by unfold Part.giveNotice; (try dsimp only); (repeat' split) <;> simp
@[simp] theorem Part.giveNotice_setup : (p.giveNotice).setup = p.setup := by unfold Part.giveNotice; (try dsimp only); (repeat' split) <;> simp
@[simp] theorem Part.giveNotice_recorder : (p.giveNotice).recorder = p.recorder := by unfold Part.giveNotice; (try dsimp only); (repeat' split) <;> simp
@[simp] theorem Part.giveNotice_dirty : (p.giveNotice).dirty = p.dirty := by unfold Part.giveNotice; (try dsimp only); (repeat' split) <;> simp
@[simp] theorem Part.giveNotice_free : (p.giveNotice).free = p.free := by unfold Part.giveNotice; (try dsimp only); (repeat' split) <;> simp

@[simp] theorem Part.takeWaitingNotice_intake : (p.takeWaitingNotice).intake = p.intake := by unfold Part.takeWaitingNotice; (try dsimp only); (repeat' split) <;> simp
@[simp] theorem Part.takeWaitingNotice_holes : (p.takeWaitingNotice).holes = p.holes := by unfold Part.takeWaitingNotice; (try dsimp only); (repeat' split) <;> simp
@[simp] theorem Part.takeWaitingNotice_sched : (p.takeWaitingNotice).sched = p.sched := by unfold Part.takeWaitingNotice; (try dsimp only); (repeat' split) <;> simp
@[simp] theorem Part.takeWaitingNotice_head : (p.takeWaitingNotice).head = p.head := by unfold Part.takeWaitingNotice; (try dsimp only); (repeat' split) <;> simp
@[simp] theorem Part.takeWaitingNotice_belt : (p.takeWaitingNotice).belt = p.belt := by unfold Part.takeWaitingNotice; (try dsimp only); (repeat' split) <;> simp
@[simp] theorem Part.takeWaitingNotice_lots : (p.takeWaitingNotice).lots = p.lots := by unfold Part.takeWaitingNotice; (try dsimp only); (repeat' split) <;> simp
@[simp] theorem Part.takeWaitingNotice_setup : (p.takeWaitingNotice).setup = p.setup := by unfold Part.takeWaitingNotice; (try dsimp only); (repeat' split) <;> simp
@[simp] theorem Part.takeWaitingNotice_recorder : (p.takeWaitingNotice).recorder = p.recorder := by unfold Part.takeWaitingNotice; (try dsimp only); (repeat' split) <;> simp
@[simp] theorem Part.takeWaitingNotice_dirty : (p.takeWaitingNotice).dirty = p.dirty := by unfold Part.takeWaitingNotice; (try dsimp only); (repeat' split) <;> simp
@[simp] theorem Part.takeWaitingNotice_free : (p.takeWaitingNotice).free = p.free := by unfold Part.takeWaitingNotice; (try dsimp only); (repeat' split) <;> simp

@[simp] theorem Part.finishJob_tracker (j : Job) (o : StampOutcome) : (p.finishJob j o).tracker = p.tracker := by unfold Part.finishJob; (try dsimp only); (repeat' split) <;> simp
@[simp] theorem Part.finishJob_holes (j : Job) (o : StampOutcome) : (p.finishJob j o).holes = p.holes := by unfold Part.finishJob; (try dsimp only); (repeat' split) <;> simp
@[simp] theorem Part.finishJob_sched (j : Job) (o : StampOutcome) : (p.finishJob j o).sched = p.sched := by unfold Part.finishJob; (try dsimp only); (repeat' split) <;> simp
@[simp] theorem Part.finishJob_head (j : Job) (o : StampOutcome) : (p.finishJob j o).head = p.head := by unfold Part.finishJob; (try dsimp only); (repeat' split) <;> simp
@[simp] theorem Part.finishJob_belt (j : Job) (o : StampOutcome) : (p.finishJob j o).belt = p.belt := by unfold Part.finishJob; (try dsimp only); (repeat' split) <;> simp
@[simp] theorem Part.finishJob_free (j : Job) (o : StampOutcome) : (p.finishJob j o).free = p.free := by unfold Part.finishJob; (try dsimp only); (repeat' split) <;> simp

@[simp] theorem Part.finishCurrent_tracker (o : StampOutcome) : (p.finishCurrent o).tracker = p.tracker := by unfold Part.finishCurrent; (try dsimp only); (repeat' split) <;> simp
@[simp] theorem Part.finishCurrent_holes (o : StampOutcome) : (p.finishCurrent o).holes = p.holes := by unfold Part.finishCurrent; (try dsimp only); (repeat' split) <;> simp
@[simp] theorem Part.finishCurrent_head (o : StampOutcome) : (p.finishCurrent o).head = p.head := by unfold Part.finishCurrent; (try dsimp only); (repeat' split) <;> simp
@[simp] theorem Part.finishCurrent_belt (o : StampOutcome) : (p.finishCurrent o).belt = p.belt := by unfold Part.finishCurrent; (try dsimp only); (repeat' split) <;> simp
@[simp] theorem Part.finishCurrent_free (o : StampOutcome) : (p.finishCurrent o).free = p.free := by unfold Part.finishCurrent; (try dsimp only); (repeat' split) <;> simp

@[simp] theorem Part.missWaiting_tracker (r : MissReason) (js : List Job) : (p.missWaiting r js).tracker = p.tracker := by
  induction js generalizing p with
  | nil => rfl
  | cons j js ih => unfold Part.missWaiting; simp [ih]
@[simp] theorem Part.missWaiting_holes (r : MissReason) (js : List Job) : (p.missWaiting r js).holes = p.holes := by
  induction js generalizing p with
  | nil => rfl
  | cons j js ih => unfold Part.missWaiting; simp [ih]
@[simp] theorem Part.missWaiting_head (r : MissReason) (js : List Job) : (p.missWaiting r js).head = p.head := by
  induction js generalizing p with
  | nil => rfl
  | cons j js ih => unfold Part.missWaiting; simp [ih]
@[simp] theorem Part.missWaiting_belt (r : MissReason) (js : List Job) : (p.missWaiting r js).belt = p.belt := by
  induction js generalizing p with
  | nil => rfl
  | cons j js ih => unfold Part.missWaiting; simp [ih]
@[simp] theorem Part.missWaiting_free (r : MissReason) (js : List Job) : (p.missWaiting r js).free = p.free := by
  induction js generalizing p with
  | nil => rfl
  | cons j js ih => unfold Part.missWaiting; simp [ih]

@[simp] theorem Part.missAll_tracker (r : MissReason) : (p.missAll r).tracker = p.tracker := by unfold Part.missAll; (try dsimp only); (repeat' split) <;> simp
@[simp] theorem Part.missAll_holes (r : MissReason) : (p.missAll r).holes = p.holes := by unfold Part.missAll; (try dsimp only); (repeat' split) <;> simp
@[simp] theorem Part.missAll_head (r : MissReason) : (p.missAll r).head = p.head := by unfold Part.missAll; (try dsimp only); (repeat' split) <;> simp
@[simp] theorem Part.missAll_belt (r : MissReason) : (p.missAll r).belt = p.belt := by unfold Part.missAll; (try dsimp only); (repeat' split) <;> simp
@[simp] theorem Part.missAll_free (r : MissReason) : (p.missAll r).free = p.free := by unfold Part.missAll; (try dsimp only); (repeat' split) <;> simp

@[simp] theorem Part.missPassed_tracker (kept js : List Job) : (p.missPassed kept js).tracker = p.tracker := by
  induction js generalizing p kept with
  | nil => rfl
  | cons j js ih => unfold Part.missPassed; split <;> simp [ih]
@[simp] theorem Part.missPassed_holes (kept js : List Job) : (p.missPassed kept js).holes = p.holes := by
  induction js generalizing p kept with
  | nil => rfl
  | cons j js ih => unfold Part.missPassed; split <;> simp [ih]
@[simp] theorem Part.missPassed_head (kept js : List Job) : (p.missPassed kept js).head = p.head := by
  induction js generalizing p kept with
  | nil => rfl
  | cons j js ih => unfold Part.missPassed; split <;> simp [ih]
@[simp] theorem Part.missPassed_belt (kept js : List Job) : (p.missPassed kept js).belt = p.belt := by
  induction js generalizing p kept with
  | nil => rfl
  | cons j js ih => unfold Part.missPassed; split <;> simp [ih]
@[simp] theorem Part.missPassed_free (kept js : List Job) : (p.missPassed kept js).free = p.free := by
  induction js generalizing p kept with
  | nil => rfl
  | cons j js ih => unfold Part.missPassed; split <;> simp [ih]

@[simp] theorem Part.nameJob_intake : (p.nameJob).intake = p.intake := by unfold Part.nameJob; (try dsimp only); (repeat' split) <;> simp
@[simp] theorem Part.nameJob_tracker : (p.nameJob).tracker = p.tracker := by unfold Part.nameJob; (try dsimp only); (repeat' split) <;> simp
@[simp] theorem Part.nameJob_holes : (p.nameJob).holes = p.holes := by unfold Part.nameJob; (try dsimp only); (repeat' split) <;> simp
@[simp] theorem Part.nameJob_head : (p.nameJob).head = p.head := by unfold Part.nameJob; (try dsimp only); (repeat' split) <;> simp
@[simp] theorem Part.nameJob_belt : (p.nameJob).belt = p.belt := by unfold Part.nameJob; (try dsimp only); (repeat' split) <;> simp
@[simp] theorem Part.nameJob_lots : (p.nameJob).lots = p.lots := by unfold Part.nameJob; (try dsimp only); (repeat' split) <;> simp
@[simp] theorem Part.nameJob_setup : (p.nameJob).setup = p.setup := by unfold Part.nameJob; (try dsimp only); (repeat' split) <;> simp
@[simp] theorem Part.nameJob_recorder : (p.nameJob).recorder = p.recorder := by unfold Part.nameJob; (try dsimp only); (repeat' split) <;> simp
@[simp] theorem Part.nameJob_dirty : (p.nameJob).dirty = p.dirty := by unfold Part.nameJob; (try dsimp only); (repeat' split) <;> simp
@[simp] theorem Part.nameJob_free : (p.nameJob).free = p.free := by unfold Part.nameJob; (try dsimp only); (repeat' split) <;> simp

@[simp] theorem Part.startJob_intake : (p.startJob).intake = p.intake := by unfold Part.startJob; (try dsimp only); (repeat' split) <;> simp
@[simp] theorem Part.startJob_tracker : (p.startJob).tracker = p.tracker := by unfold Part.startJob; (try dsimp only); (repeat' split) <;> simp
@[simp] theorem Part.startJob_holes : (p.startJob).holes = p.holes := by unfold Part.startJob; (try dsimp only); (repeat' split) <;> simp
@[simp] theorem Part.startJob_belt : (p.startJob).belt = p.belt := by unfold Part.startJob; (try dsimp only); (repeat' split) <;> simp
@[simp] theorem Part.startJob_lots : (p.startJob).lots = p.lots := by unfold Part.startJob; (try dsimp only); (repeat' split) <;> simp
@[simp] theorem Part.startJob_setup : (p.startJob).setup = p.setup := by unfold Part.startJob; (try dsimp only); (repeat' split) <;> simp
@[simp] theorem Part.startJob_recorder : (p.startJob).recorder = p.recorder := by unfold Part.startJob; (try dsimp only); (repeat' split) <;> simp
@[simp] theorem Part.startJob_free : (p.startJob).free = p.free := by unfold Part.startJob; (try dsimp only); (repeat' split) <;> simp

@[simp] theorem Part.nameAndStart_intake : (p.nameAndStart).intake = p.intake := by unfold Part.nameAndStart; (try dsimp only); (repeat' split) <;> simp
@[simp] theorem Part.nameAndStart_tracker : (p.nameAndStart).tracker = p.tracker := by unfold Part.nameAndStart; (try dsimp only); (repeat' split) <;> simp
@[simp] theorem Part.nameAndStart_holes : (p.nameAndStart).holes = p.holes := by unfold Part.nameAndStart; (try dsimp only); (repeat' split) <;> simp
@[simp] theorem Part.nameAndStart_belt : (p.nameAndStart).belt = p.belt := by unfold Part.nameAndStart; (try dsimp only); (repeat' split) <;> simp
@[simp] theorem Part.nameAndStart_lots : (p.nameAndStart).lots = p.lots := by unfold Part.nameAndStart; (try dsimp only); (repeat' split) <;> simp
@[simp] theorem Part.nameAndStart_setup : (p.nameAndStart).setup = p.setup := by unfold Part.nameAndStart; (try dsimp only); (repeat' split) <;> simp
@[simp] theorem Part.nameAndStart_recorder : (p.nameAndStart).recorder = p.recorder := by unfold Part.nameAndStart; (try dsimp only); (repeat' split) <;> simp
@[simp] theorem Part.nameAndStart_free : (p.nameAndStart).free = p.free := by unfold Part.nameAndStart; (try dsimp only); (repeat' split) <;> simp

@[simp] theorem Part.enterParking_intake : (p.enterParking).intake = p.intake := by unfold Part.enterParking; (try dsimp only); (repeat' split) <;> simp
@[simp] theorem Part.enterParking_tracker : (p.enterParking).tracker = p.tracker := by unfold Part.enterParking; (try dsimp only); (repeat' split) <;> simp
@[simp] theorem Part.enterParking_holes : (p.enterParking).holes = p.holes := by unfold Part.enterParking; (try dsimp only); (repeat' split) <;> simp
@[simp] theorem Part.enterParking_belt : (p.enterParking).belt = p.belt := by unfold Part.enterParking; (try dsimp only); (repeat' split) <;> simp
@[simp] theorem Part.enterParking_lots : (p.enterParking).lots = p.lots := by unfold Part.enterParking; (try dsimp only); (repeat' split) <;> simp
@[simp] theorem Part.enterParking_setup : (p.enterParking).setup = p.setup := by unfold Part.enterParking; (try dsimp only); (repeat' split) <;> simp
@[simp] theorem Part.enterParking_recorder : (p.enterParking).recorder = p.recorder := by unfold Part.enterParking; (try dsimp only); (repeat' split) <;> simp
@[simp] theorem Part.enterParking_free : (p.enterParking).free = p.free := by unfold Part.enterParking; (try dsimp only); (repeat' split) <;> simp

@[simp] theorem Part.enterReady_intake : (p.enterReady).intake = p.intake := by unfold Part.enterReady; (try dsimp only); (repeat' split) <;> simp
@[simp] theorem Part.enterReady_tracker : (p.enterReady).tracker = p.tracker := by unfold Part.enterReady; (try dsimp only); (repeat' split) <;> simp
@[simp] theorem Part.enterReady_holes : (p.enterReady).holes = p.holes := by unfold Part.enterReady; (try dsimp only); (repeat' split) <;> simp
@[simp] theorem Part.enterReady_belt : (p.enterReady).belt = p.belt := by unfold Part.enterReady; (try dsimp only); (repeat' split) <;> simp
@[simp] theorem Part.enterReady_lots : (p.enterReady).lots = p.lots := by unfold Part.enterReady; (try dsimp only); (repeat' split) <;> simp
@[simp] theorem Part.enterReady_setup : (p.enterReady).setup = p.setup := by unfold Part.enterReady; (try dsimp only); (repeat' split) <;> simp
@[simp] theorem Part.enterReady_recorder : (p.enterReady).recorder = p.recorder := by unfold Part.enterReady; (try dsimp only); (repeat' split) <;> simp
@[simp] theorem Part.enterReady_free : (p.enterReady).free = p.free := by unfold Part.enterReady; (try dsimp only); (repeat' split) <;> simp

@[simp] theorem Part.currentAtHoming_tracker (c : HomingCause) : (p.currentAtHoming c).tracker = p.tracker := by unfold Part.currentAtHoming; (try dsimp only); (repeat' split) <;> simp
@[simp] theorem Part.currentAtHoming_holes (c : HomingCause) : (p.currentAtHoming c).holes = p.holes := by unfold Part.currentAtHoming; (try dsimp only); (repeat' split) <;> simp
@[simp] theorem Part.currentAtHoming_head (c : HomingCause) : (p.currentAtHoming c).head = p.head := by unfold Part.currentAtHoming; (try dsimp only); (repeat' split) <;> simp
@[simp] theorem Part.currentAtHoming_belt (c : HomingCause) : (p.currentAtHoming c).belt = p.belt := by unfold Part.currentAtHoming; (try dsimp only); (repeat' split) <;> simp
@[simp] theorem Part.currentAtHoming_free (c : HomingCause) : (p.currentAtHoming c).free = p.free := by unfold Part.currentAtHoming; (try dsimp only); (repeat' split) <;> simp

@[simp] theorem Part.enterHoming_tracker (c : HomingCause) : (p.enterHoming c).tracker = p.tracker := by unfold Part.enterHoming; (try dsimp only); (repeat' split) <;> simp
@[simp] theorem Part.enterHoming_holes (c : HomingCause) : (p.enterHoming c).holes = p.holes := by unfold Part.enterHoming; (try dsimp only); (repeat' split) <;> simp
@[simp] theorem Part.enterHoming_belt (c : HomingCause) : (p.enterHoming c).belt = p.belt := by unfold Part.enterHoming; (try dsimp only); (repeat' split) <;> simp
@[simp] theorem Part.enterHoming_free (c : HomingCause) : (p.enterHoming c).free = p.free := by unfold Part.enterHoming; (try dsimp only); (repeat' split) <;> simp

@[simp] theorem Part.enterFaulted_tracker (i : Nat) (c : FaultCode) : (p.enterFaulted i c).tracker = p.tracker := by unfold Part.enterFaulted; (try dsimp only); (repeat' split) <;> simp
@[simp] theorem Part.enterFaulted_holes (i : Nat) (c : FaultCode) : (p.enterFaulted i c).holes = p.holes := by unfold Part.enterFaulted; (try dsimp only); (repeat' split) <;> simp
@[simp] theorem Part.enterFaulted_belt (i : Nat) (c : FaultCode) : (p.enterFaulted i c).belt = p.belt := by unfold Part.enterFaulted; (try dsimp only); (repeat' split) <;> simp
@[simp] theorem Part.enterFaulted_free (i : Nat) (c : FaultCode) : (p.enterFaulted i c).free = p.free := by unfold Part.enterFaulted; (try dsimp only); (repeat' split) <;> simp

@[simp] theorem Part.withdraw_intake : (p.withdraw).intake = p.intake := by unfold Part.withdraw; (try dsimp only); (repeat' split) <;> simp
@[simp] theorem Part.withdraw_tracker : (p.withdraw).tracker = p.tracker := by unfold Part.withdraw; (try dsimp only); (repeat' split) <;> simp
@[simp] theorem Part.withdraw_holes : (p.withdraw).holes = p.holes := by unfold Part.withdraw; (try dsimp only); (repeat' split) <;> simp
@[simp] theorem Part.withdraw_belt : (p.withdraw).belt = p.belt := by unfold Part.withdraw; (try dsimp only); (repeat' split) <;> simp
@[simp] theorem Part.withdraw_lots : (p.withdraw).lots = p.lots := by unfold Part.withdraw; (try dsimp only); (repeat' split) <;> simp
@[simp] theorem Part.withdraw_setup : (p.withdraw).setup = p.setup := by unfold Part.withdraw; (try dsimp only); (repeat' split) <;> simp
@[simp] theorem Part.withdraw_recorder : (p.withdraw).recorder = p.recorder := by unfold Part.withdraw; (try dsimp only); (repeat' split) <;> simp
@[simp] theorem Part.withdraw_free : (p.withdraw).free = p.free := by unfold Part.withdraw; (try dsimp only); (repeat' split) <;> simp

@[simp] theorem Part.requestStrike_intake (j : Job) : (p.requestStrike j).intake = p.intake := by unfold Part.requestStrike; (try dsimp only); (repeat' split) <;> simp
@[simp] theorem Part.requestStrike_tracker (j : Job) : (p.requestStrike j).tracker = p.tracker := by unfold Part.requestStrike; (try dsimp only); (repeat' split) <;> simp
@[simp] theorem Part.requestStrike_holes (j : Job) : (p.requestStrike j).holes = p.holes := by unfold Part.requestStrike; (try dsimp only); (repeat' split) <;> simp
@[simp] theorem Part.requestStrike_belt (j : Job) : (p.requestStrike j).belt = p.belt := by unfold Part.requestStrike; (try dsimp only); (repeat' split) <;> simp
@[simp] theorem Part.requestStrike_lots (j : Job) : (p.requestStrike j).lots = p.lots := by unfold Part.requestStrike; (try dsimp only); (repeat' split) <;> simp
@[simp] theorem Part.requestStrike_setup (j : Job) : (p.requestStrike j).setup = p.setup := by unfold Part.requestStrike; (try dsimp only); (repeat' split) <;> simp
@[simp] theorem Part.requestStrike_recorder (j : Job) : (p.requestStrike j).recorder = p.recorder := by unfold Part.requestStrike; (try dsimp only); (repeat' split) <;> simp
@[simp] theorem Part.requestStrike_free (j : Job) : (p.requestStrike j).free = p.free := by unfold Part.requestStrike; (try dsimp only); (repeat' split) <;> simp

@[simp] theorem Part.settleCurrent_tracker : (p.settleCurrent).tracker = p.tracker := by unfold Part.settleCurrent; (try dsimp only); (repeat' split) <;> simp
@[simp] theorem Part.settleCurrent_holes : (p.settleCurrent).holes = p.holes := by unfold Part.settleCurrent; (try dsimp only); (repeat' split) <;> simp
@[simp] theorem Part.settleCurrent_belt : (p.settleCurrent).belt = p.belt := by unfold Part.settleCurrent; (try dsimp only); (repeat' split) <;> simp
@[simp] theorem Part.settleCurrent_free : (p.settleCurrent).free = p.free := by unfold Part.settleCurrent; (try dsimp only); (repeat' split) <;> simp

@[simp] theorem Part.settleIncrement_tracker : (p.settleIncrement).tracker = p.tracker := by unfold Part.settleIncrement; (try dsimp only); (repeat' split) <;> simp
@[simp] theorem Part.settleIncrement_holes : (p.settleIncrement).holes = p.holes := by unfold Part.settleIncrement; (try dsimp only); (repeat' split) <;> simp
@[simp] theorem Part.settleIncrement_belt : (p.settleIncrement).belt = p.belt := by unfold Part.settleIncrement; (try dsimp only); (repeat' split) <;> simp
@[simp] theorem Part.settleIncrement_free : (p.settleIncrement).free = p.free := by unfold Part.settleIncrement; (try dsimp only); (repeat' split) <;> simp

@[simp] theorem Part.restartCurrent_tracker : (p.restartCurrent).tracker = p.tracker := by unfold Part.restartCurrent; (try dsimp only); (repeat' split) <;> simp
@[simp] theorem Part.restartCurrent_holes : (p.restartCurrent).holes = p.holes := by unfold Part.restartCurrent; (try dsimp only); (repeat' split) <;> simp
@[simp] theorem Part.restartCurrent_belt : (p.restartCurrent).belt = p.belt := by unfold Part.restartCurrent; (try dsimp only); (repeat' split) <;> simp
@[simp] theorem Part.restartCurrent_free : (p.restartCurrent).free = p.free := by unfold Part.restartCurrent; (try dsimp only); (repeat' split) <;> simp

@[simp] theorem Part.schedulerRestart_tracker : (p.schedulerRestart).tracker = p.tracker := by unfold Part.schedulerRestart; (try dsimp only); (repeat' split) <;> simp
@[simp] theorem Part.schedulerRestart_holes : (p.schedulerRestart).holes = p.holes := by unfold Part.schedulerRestart; (try dsimp only); (repeat' split) <;> simp
@[simp] theorem Part.schedulerRestart_belt : (p.schedulerRestart).belt = p.belt := by unfold Part.schedulerRestart; (try dsimp only); (repeat' split) <;> simp
@[simp] theorem Part.schedulerRestart_free : (p.schedulerRestart).free = p.free := by unfold Part.schedulerRestart; (try dsimp only); (repeat' split) <;> simp

@[simp] theorem Part.makeJob_intake (i : HideInfo) (x : Site) (y : Symbols) : (p.makeJob i x y).intake = p.intake := by unfold Part.makeJob; (try dsimp only); (repeat' split) <;> simp
@[simp] theorem Part.makeJob_tracker (i : HideInfo) (x : Site) (y : Symbols) : (p.makeJob i x y).tracker = p.tracker := by unfold Part.makeJob; (try dsimp only); (repeat' split) <;> simp
@[simp] theorem Part.makeJob_holes (i : HideInfo) (x : Site) (y : Symbols) : (p.makeJob i x y).holes = p.holes := by unfold Part.makeJob; (try dsimp only); (repeat' split) <;> simp
@[simp] theorem Part.makeJob_belt (i : HideInfo) (x : Site) (y : Symbols) : (p.makeJob i x y).belt = p.belt := by unfold Part.makeJob; (try dsimp only); (repeat' split) <;> simp
@[simp] theorem Part.makeJob_lots (i : HideInfo) (x : Site) (y : Symbols) : (p.makeJob i x y).lots = p.lots := by unfold Part.makeJob; (try dsimp only); (repeat' split) <;> simp
@[simp] theorem Part.makeJob_setup (i : HideInfo) (x : Site) (y : Symbols) : (p.makeJob i x y).setup = p.setup := by unfold Part.makeJob; (try dsimp only); (repeat' split) <;> simp
@[simp] theorem Part.makeJob_recorder (i : HideInfo) (x : Site) (y : Symbols) : (p.makeJob i x y).recorder = p.recorder := by unfold Part.makeJob; (try dsimp only); (repeat' split) <;> simp
@[simp] theorem Part.makeJob_free (i : HideInfo) (x : Site) (y : Symbols) : (p.makeJob i x y).free = p.free := by unfold Part.makeJob; (try dsimp only); (repeat' split) <;> simp

@[simp] theorem Part.parkOrder_intake : (p.parkOrder).intake = p.intake := by unfold Part.parkOrder; (try dsimp only); (repeat' split) <;> simp
@[simp] theorem Part.parkOrder_tracker : (p.parkOrder).tracker = p.tracker := by unfold Part.parkOrder; (try dsimp only); (repeat' split) <;> simp
@[simp] theorem Part.parkOrder_holes : (p.parkOrder).holes = p.holes := by unfold Part.parkOrder; (try dsimp only); (repeat' split) <;> simp
@[simp] theorem Part.parkOrder_belt : (p.parkOrder).belt = p.belt := by unfold Part.parkOrder; (try dsimp only); (repeat' split) <;> simp
@[simp] theorem Part.parkOrder_lots : (p.parkOrder).lots = p.lots := by unfold Part.parkOrder; (try dsimp only); (repeat' split) <;> simp
@[simp] theorem Part.parkOrder_setup : (p.parkOrder).setup = p.setup := by unfold Part.parkOrder; (try dsimp only); (repeat' split) <;> simp
@[simp] theorem Part.parkOrder_recorder : (p.parkOrder).recorder = p.recorder := by unfold Part.parkOrder; (try dsimp only); (repeat' split) <;> simp
@[simp] theorem Part.parkOrder_free : (p.parkOrder).free = p.free := by unfold Part.parkOrder; (try dsimp only); (repeat' split) <;> simp

@[simp] theorem Part.wakeOrder_tracker : (p.wakeOrder).tracker = p.tracker := by unfold Part.wakeOrder; (try dsimp only); (repeat' split) <;> simp
@[simp] theorem Part.wakeOrder_holes : (p.wakeOrder).holes = p.holes := by unfold Part.wakeOrder; (try dsimp only); (repeat' split) <;> simp
@[simp] theorem Part.wakeOrder_belt : (p.wakeOrder).belt = p.belt := by unfold Part.wakeOrder; (try dsimp only); (repeat' split) <;> simp
@[simp] theorem Part.wakeOrder_free : (p.wakeOrder).free = p.free := by unfold Part.wakeOrder; (try dsimp only); (repeat' split) <;> simp

@[simp] theorem Part.leaveUnstamped_intake (i : HideInfo) (r : UnstampedReason) : (p.leaveUnstamped i r).intake = p.intake := by unfold Part.leaveUnstamped; (try dsimp only); (repeat' split) <;> simp
@[simp] theorem Part.leaveUnstamped_tracker (i : HideInfo) (r : UnstampedReason) : (p.leaveUnstamped i r).tracker = p.tracker := by unfold Part.leaveUnstamped; (try dsimp only); (repeat' split) <;> simp
@[simp] theorem Part.leaveUnstamped_holes (i : HideInfo) (r : UnstampedReason) : (p.leaveUnstamped i r).holes = p.holes := by unfold Part.leaveUnstamped; (try dsimp only); (repeat' split) <;> simp
@[simp] theorem Part.leaveUnstamped_sched (i : HideInfo) (r : UnstampedReason) : (p.leaveUnstamped i r).sched = p.sched := by unfold Part.leaveUnstamped; (try dsimp only); (repeat' split) <;> simp
@[simp] theorem Part.leaveUnstamped_head (i : HideInfo) (r : UnstampedReason) : (p.leaveUnstamped i r).head = p.head := by unfold Part.leaveUnstamped; (try dsimp only); (repeat' split) <;> simp
@[simp] theorem Part.leaveUnstamped_belt (i : HideInfo) (r : UnstampedReason) : (p.leaveUnstamped i r).belt = p.belt := by unfold Part.leaveUnstamped; (try dsimp only); (repeat' split) <;> simp
@[simp] theorem Part.leaveUnstamped_free (i : HideInfo) (r : UnstampedReason) : (p.leaveUnstamped i r).free = p.free := by unfold Part.leaveUnstamped; (try dsimp only); (repeat' split) <;> simp

@[simp] theorem Part.handOn_intake (i : HideInfo) : (p.handOn i).intake = p.intake := by unfold Part.handOn; (try dsimp only); (repeat' split) <;> simp
@[simp] theorem Part.handOn_tracker (i : HideInfo) : (p.handOn i).tracker = p.tracker := by unfold Part.handOn; (try dsimp only); (repeat' split) <;> simp
@[simp] theorem Part.handOn_holes (i : HideInfo) : (p.handOn i).holes = p.holes := by unfold Part.handOn; (try dsimp only); (repeat' split) <;> simp
@[simp] theorem Part.handOn_belt (i : HideInfo) : (p.handOn i).belt = p.belt := by unfold Part.handOn; (try dsimp only); (repeat' split) <;> simp
@[simp] theorem Part.handOn_free (i : HideInfo) : (p.handOn i).free = p.free := by unfold Part.handOn; (try dsimp only); (repeat' split) <;> simp

@[simp] theorem Part.takeHide_intake (x : Source) (c : CloseCause) (h : Hide) : (p.takeHide x c h).intake = p.intake := by unfold Part.takeHide; (try dsimp only); (repeat' split) <;> simp
@[simp] theorem Part.takeHide_tracker (x : Source) (c : CloseCause) (h : Hide) : (p.takeHide x c h).tracker = p.tracker := by unfold Part.takeHide; (try dsimp only); (repeat' split) <;> simp
@[simp] theorem Part.takeHide_holes (x : Source) (c : CloseCause) (h : Hide) : (p.takeHide x c h).holes = p.holes := by unfold Part.takeHide; (try dsimp only); (repeat' split) <;> simp
@[simp] theorem Part.takeHide_belt (x : Source) (c : CloseCause) (h : Hide) : (p.takeHide x c h).belt = p.belt := by unfold Part.takeHide; (try dsimp only); (repeat' split) <;> simp
@[simp] theorem Part.takeHide_free (x : Source) (c : CloseCause) (h : Hide) : (p.takeHide x c h).free = p.free := by unfold Part.takeHide; (try dsimp only); (repeat' split) <;> simp

end Sys2Proof.Machine
end

