-- ==== Sys2Proof/Laws/Memory.lean ====
section
/-! SUPPORT. The RAM: every write keeps the canonical form, and what a read finds after a write. -/

namespace Sys2Proof.Machine

/-- A canonical tail allows any lower bound below its own. -/
theorem Memory.wfFrom_mono {m : Memory} {lo lo' : Nat} (h : Memory.wfFrom lo m = true) (hle : lo' ≤ lo) :
    Memory.wfFrom lo' m = true := by
  cases m with
  | nil => rfl
  | cons c m =>
    obtain ⟨x, b⟩ := c
    simp only [Memory.wfFrom, Bool.and_eq_true, decide_eq_true_eq] at h ⊢
    exact ⟨⟨⟨le_trans hle h.1.1.1, h.1.1.2⟩, h.1.2⟩, h.2⟩

/-- Below the bound of a canonical list every byte reads as the fill. -/
theorem Memory.read_below {m : Memory} {lo a : Nat} (h : Memory.wfFrom lo m = true) (ha : a < lo) :
    m.read a = ramFill := by
  induction m generalizing lo with
  | nil => rfl
  | cons c m ih =>
    obtain ⟨x, b⟩ := c
    simp only [Memory.wfFrom, Bool.and_eq_true, decide_eq_true_eq] at h
    have hx : a ≠ x := by omega
    simp only [Memory.read, if_neg hx]
    exact ih h.2 (by omega)

/-- A write keeps the canonical form. -/
theorem Memory.wfFrom_write {m : Memory} {lo a : Nat} (b : Byte) (h : Memory.wfFrom lo m = true) (hlo : lo ≤ a)
    (ha : a < 0x1000000) : Memory.wfFrom lo (m.write a b) = true := by
  induction m generalizing lo with
  | nil =>
    unfold Memory.write
    split
    · rfl
    · next hb => simp [Memory.wfFrom, hlo, ha, hb]
  | cons c m ih =>
    obtain ⟨x, y⟩ := c
    have h0 := h
    simp only [Memory.wfFrom, Bool.and_eq_true, decide_eq_true_eq] at h
    obtain ⟨⟨⟨hx, hx2⟩, hy⟩, hm⟩ := h
    unfold Memory.write
    split
    · next hlt =>
      split
      · exact h0
      · next hb =>
        simp only [Memory.wfFrom, Bool.and_eq_true, decide_eq_true_eq]
        exact ⟨⟨⟨hlo, ha⟩, hb⟩, ⟨⟨hlt, hx2⟩, hy⟩, hm⟩
    · split
      · next hne heq =>
        split
        · exact Memory.wfFrom_mono hm (by omega)
        · next hb =>
          simp only [Memory.wfFrom, Bool.and_eq_true, decide_eq_true_eq]
          exact ⟨⟨⟨hlo, ha⟩, hb⟩, heq ▸ hm⟩
      · simp only [Memory.wfFrom, Bool.and_eq_true, decide_eq_true_eq]
        exact ⟨⟨⟨hx, hx2⟩, hy⟩, ih hm (by omega)⟩

/-- What a read finds after a write of one byte. -/
theorem Memory.read_write {m : Memory} {lo : Nat} (a a' : Nat) (b : Byte) (h : Memory.wfFrom lo m = true) :
    (m.write a b).read a' = if a' = a then b else m.read a' := by
  induction m generalizing lo with
  | nil =>
    unfold Memory.write
    split
    · next hb => subst hb; split <;> rfl
    · simp [Memory.read]
  | cons c m ih =>
    obtain ⟨x, y⟩ := c
    simp only [Memory.wfFrom, Bool.and_eq_true, decide_eq_true_eq] at h
    obtain ⟨⟨⟨hx, hx2⟩, hy⟩, hm⟩ := h
    unfold Memory.write
    split
    · next hlt =>
      split
      · next hb =>
        by_cases e : a' = a
        · subst e; subst hb
          simp only [if_true, Memory.read, if_neg (by omega : a' ≠ x)]
          exact Memory.read_below hm (by omega)
        · simp [e]
      · simp only [Memory.read]
    · split
      · next heq =>
        subst heq
        split
        · next hb =>
          by_cases e : a' = a
          · subst e; subst hb; simp only [if_true]; exact Memory.read_below hm (by omega)
          · simp [Memory.read, e]
        · by_cases e : a' = a <;> simp [Memory.read, e]
      · next hne heq =>
        simp only [Memory.read]
        by_cases e : a' = x
        · subst e; simp [Ne.symm heq]
        · simp only [if_neg e]; exact ih hm

/-- The addresses of a word's lanes lie in the address space. -/
theorem laneAddr_lt (addr : BitVec 24) (l : Nat) : laneAddr addr l < 0x1000000 := (addr + BitVec.ofNat 24 l).isLt

/-- A lane's write keeps the canonical form. -/
theorem Memory.wf_writeLane {m : Memory} (addr : BitVec 24) (en : Lanes) (w : Word) (l : Nat) (h : m.wf = true) :
    (m.writeLane addr en w l).wf = true := by
  unfold Memory.writeLane
  split
  · exact Memory.wfFrom_write _ h (Nat.zero_le _) (laneAddr_lt addr l)
  · exact h

/-- A word's write keeps the canonical form. -/
theorem Memory.wf_writeWord {m : Memory} (addr : BitVec 24) (en : Lanes) (w : Word) (h : m.wf = true) :
    (m.writeWord addr en w).wf = true :=
  Memory.wf_writeLane _ _ _ _ (Memory.wf_writeLane _ _ _ _ (Memory.wf_writeLane _ _ _ _ (Memory.wf_writeLane _ _ _ _ h)))

/-- What a read finds after a lane's write. -/
theorem Memory.read_writeLane {m : Memory} (addr : BitVec 24) (en : Lanes) (w : Word) (l a : Nat) (h : m.wf = true) :
    (m.writeLane addr en w l).read a = if en.getLsbD l ∧ a = laneAddr addr l then laneByte w l else m.read a := by
  unfold Memory.writeLane
  split
  · next he => rw [Memory.read_write _ _ _ h]; simp [he]
  · next he => simp [he]

/-- What a read finds after a word's write: the highest enabled lane at the address, else the old byte. -/
theorem Memory.read_writeWord {m : Memory} (addr : BitVec 24) (en : Lanes) (w : Word) (a : Nat) (h : m.wf = true) :
    (m.writeWord addr en w).read a =
      if en.getLsbD 3 ∧ a = laneAddr addr 3 then laneByte w 3
      else if en.getLsbD 2 ∧ a = laneAddr addr 2 then laneByte w 2
      else if en.getLsbD 1 ∧ a = laneAddr addr 1 then laneByte w 1
      else if en.getLsbD 0 ∧ a = laneAddr addr 0 then laneByte w 0
      else m.read a := by
  unfold Memory.writeWord
  have h0 := Memory.wf_writeLane addr en w 0 h
  have h1 := Memory.wf_writeLane addr en w 1 h0
  have h2 := Memory.wf_writeLane addr en w 2 h1
  rw [Memory.read_writeLane _ _ _ _ _ h2, Memory.read_writeLane _ _ _ _ _ h1, Memory.read_writeLane _ _ _ _ _ h0,
    Memory.read_writeLane _ _ _ _ _ h]

/-- Two lanes of one word have different addresses. -/
theorem laneAddr_ne (addr : BitVec 24) {i j : Nat} (hi : i < 4) (hj : j < 4) (hne : i ≠ j) :
    laneAddr addr i ≠ laneAddr addr j := by
  unfold laneAddr
  intro e
  simp only [BitVec.toNat_add, BitVec.toNat_ofNat] at e
  omega

/-- A word written with all four lanes enabled reads back. -/
theorem Memory.readWord_writeWord {m : Memory} (addr : BitVec 24) (w : Word) (h : m.wf = true) :
    (m.writeWord addr 0xF w).readWord addr = w := by
  have e : ∀ l, l < 4 → (0xF : Lanes).getLsbD l = true := by decide
  unfold Memory.readWord
  rw [Memory.read_writeWord _ _ _ _ h, Memory.read_writeWord _ _ _ _ h, Memory.read_writeWord _ _ _ _ h,
    Memory.read_writeWord _ _ _ _ h]
  have n := @laneAddr_ne addr
  simp only [e 0 (by omega), e 1 (by omega), e 2 (by omega), e 3 (by omega), true_and,
    if_true, if_neg (n (i := 2) (j := 3) (by omega) (by omega) (by omega)),
    if_neg (n (i := 1) (j := 3) (by omega) (by omega) (by omega)),
    if_neg (n (i := 1) (j := 2) (by omega) (by omega) (by omega)),
    if_neg (n (i := 0) (j := 3) (by omega) (by omega) (by omega)),
    if_neg (n (i := 0) (j := 2) (by omega) (by omega) (by omega)),
    if_neg (n (i := 0) (j := 1) (by omega) (by omega) (by omega))]
  unfold laneByte
  ext i hi
  simp only [BitVec.getElem_append, BitVec.getElem_extractLsb']
  have g : ∀ j (hj : j = i), w.getLsbD j = w[i] := by
    intro j hj; subst hj; exact BitVec.getLsbD_eq_getElem hi
  split
  · exact g _ (by omega)
  · split
    · exact g _ (by omega)
    · split
      · exact g _ (by omega)
      · exact g _ (by omega)

end Sys2Proof.Machine
end

