-- ==== Sys2Proof/Laws/PassFrames.lean ====
section
/-! SUPPORT. What the stages of a row pass leave alone, block by block. -/

namespace Sys2Proof.Machine

set_option linter.unusedTactic false
set_option linter.unnecessarySeqFocus false

/-- A fold whose every step keeps a value keeps it. -/
theorem foldl_keep {α β γ : Type} {f : α → γ} {g : α → β → α} (h : ∀ a b, f (g a b) = f a) (l : List β) (a : α) :
    f (l.foldl g a) = f a := by
  induction l generalizing a with
  | nil => rfl
  | cons b l ih => rw [List.foldl_cons, ih, h]

variable (p : Part)

@[simp] theorem Part.birthLot_intake : (p.birthLot).2.intake = p.intake := by unfold Part.birthLot; (try dsimp only); (repeat' split) <;> simp
@[simp] theorem Part.birthLot_tracker : (p.birthLot).2.tracker = p.tracker := by unfold Part.birthLot; (try dsimp only); (repeat' split) <;> simp
@[simp] theorem Part.birthLot_holes : (p.birthLot).2.holes = p.holes := by unfold Part.birthLot; (try dsimp only); (repeat' split) <;> simp
@[simp] theorem Part.birthLot_sched : (p.birthLot).2.sched = p.sched := by unfold Part.birthLot; (try dsimp only); (repeat' split) <;> simp
@[simp] theorem Part.birthLot_head : (p.birthLot).2.head = p.head := by unfold Part.birthLot; (try dsimp only); (repeat' split) <;> simp
@[simp] theorem Part.birthLot_belt : (p.birthLot).2.belt = p.belt := by unfold Part.birthLot; (try dsimp only); (repeat' split) <;> simp
@[simp] theorem Part.birthLot_recorder : (p.birthLot).2.recorder = p.recorder := by unfold Part.birthLot; (try dsimp only); (repeat' split) <;> simp
@[simp] theorem Part.birthLot_free : (p.birthLot).2.free = p.free := by unfold Part.birthLot; (try dsimp only); (repeat' split) <;> simp

@[simp] theorem Part.drawNumber_intake : (p.drawNumber).2.intake = p.intake := by unfold Part.drawNumber; (try dsimp only); (repeat' split) <;> simp
@[simp] theorem Part.drawNumber_holes : (p.drawNumber).2.holes = p.holes := by unfold Part.drawNumber; (try dsimp only); (repeat' split) <;> simp
@[simp] theorem Part.drawNumber_sched : (p.drawNumber).2.sched = p.sched := by unfold Part.drawNumber; (try dsimp only); (repeat' split) <;> simp
@[simp] theorem Part.drawNumber_head : (p.drawNumber).2.head = p.head := by unfold Part.drawNumber; (try dsimp only); (repeat' split) <;> simp
@[simp] theorem Part.drawNumber_belt : (p.drawNumber).2.belt = p.belt := by unfold Part.drawNumber; (try dsimp only); (repeat' split) <;> simp
@[simp] theorem Part.drawNumber_lots : (p.drawNumber).2.lots = p.lots := by unfold Part.drawNumber; (try dsimp only); (repeat' split) <;> simp
@[simp] theorem Part.drawNumber_setup : (p.drawNumber).2.setup = p.setup := by unfold Part.drawNumber; (try dsimp only); (repeat' split) <;> simp
@[simp] theorem Part.drawNumber_recorder : (p.drawNumber).2.recorder = p.recorder := by unfold Part.drawNumber; (try dsimp only); (repeat' split) <;> simp
@[simp] theorem Part.drawNumber_free : (p.drawNumber).2.free = p.free := by unfold Part.drawNumber; (try dsimp only); (repeat' split) <;> simp

@[simp] theorem Part.removeRuns_intake (h : Nat) : (p.removeRuns h).intake = p.intake := rfl
@[simp] theorem Part.removeRuns_tracker (h : Nat) : (p.removeRuns h).tracker = p.tracker := rfl
@[simp] theorem Part.removeRuns_sched (h : Nat) : (p.removeRuns h).sched = p.sched := rfl
@[simp] theorem Part.removeRuns_head (h : Nat) : (p.removeRuns h).head = p.head := rfl
@[simp] theorem Part.removeRuns_belt (h : Nat) : (p.removeRuns h).belt = p.belt := rfl
@[simp] theorem Part.removeRuns_lots (h : Nat) : (p.removeRuns h).lots = p.lots := rfl
@[simp] theorem Part.removeRuns_setup (h : Nat) : (p.removeRuns h).setup = p.setup := rfl
@[simp] theorem Part.removeRuns_recorder (h : Nat) : (p.removeRuns h).recorder = p.recorder := rfl
@[simp] theorem Part.removeRuns_dirty (h : Nat) : (p.removeRuns h).dirty = p.dirty := rfl
@[simp] theorem Part.removeRuns_free (h : Nat) : (p.removeRuns h).free = p.free := rfl

@[simp] theorem Part.breach_intake (h : Nat) : (p.breach h).intake = p.intake := by unfold Part.breach; (try dsimp only); (repeat' split) <;> simp
@[simp] theorem Part.breach_sched (h : Nat) : (p.breach h).sched = p.sched := by unfold Part.breach; (try dsimp only); (repeat' split) <;> simp
@[simp] theorem Part.breach_head (h : Nat) : (p.breach h).head = p.head := by unfold Part.breach; (try dsimp only); (repeat' split) <;> simp
@[simp] theorem Part.breach_belt (h : Nat) : (p.breach h).belt = p.belt := by unfold Part.breach; (try dsimp only); (repeat' split) <;> simp
@[simp] theorem Part.breach_lots (h : Nat) : (p.breach h).lots = p.lots := by unfold Part.breach; (try dsimp only); (repeat' split) <;> simp
@[simp] theorem Part.breach_setup (h : Nat) : (p.breach h).setup = p.setup := by unfold Part.breach; (try dsimp only); (repeat' split) <;> simp
@[simp] theorem Part.breach_recorder (h : Nat) : (p.breach h).recorder = p.recorder := by unfold Part.breach; (try dsimp only); (repeat' split) <;> simp
@[simp] theorem Part.breach_dirty (h : Nat) : (p.breach h).dirty = p.dirty := by unfold Part.breach; (try dsimp only); (repeat' split) <;> simp
@[simp] theorem Part.breach_free (h : Nat) : (p.breach h).free = p.free := by unfold Part.breach; (try dsimp only); (repeat' split) <;> simp

@[simp] theorem Part.holeLimit_intake (e : Nat) : (p.holeLimit e).intake = p.intake := by unfold Part.holeLimit; (try dsimp only); (repeat' split) <;> simp
@[simp] theorem Part.holeLimit_holes (e : Nat) : (p.holeLimit e).holes = p.holes := by unfold Part.holeLimit; (try dsimp only); (repeat' split) <;> simp
@[simp] theorem Part.holeLimit_sched (e : Nat) : (p.holeLimit e).sched = p.sched := by unfold Part.holeLimit; (try dsimp only); (repeat' split) <;> simp
@[simp] theorem Part.holeLimit_head (e : Nat) : (p.holeLimit e).head = p.head := by unfold Part.holeLimit; (try dsimp only); (repeat' split) <;> simp
@[simp] theorem Part.holeLimit_belt (e : Nat) : (p.holeLimit e).belt = p.belt := by unfold Part.holeLimit; (try dsimp only); (repeat' split) <;> simp
@[simp] theorem Part.holeLimit_setup (e : Nat) : (p.holeLimit e).setup = p.setup := by unfold Part.holeLimit; (try dsimp only); (repeat' split) <;> simp
@[simp] theorem Part.holeLimit_free (e : Nat) : (p.holeLimit e).free = p.free := by unfold Part.holeLimit; (try dsimp only); (repeat' split) <;> simp

@[simp] theorem Part.holeBirth_intake (g : Gap) : (p.holeBirth g).intake = p.intake := by unfold Part.holeBirth; (try dsimp only); (repeat' split) <;> simp
@[simp] theorem Part.holeBirth_sched (g : Gap) : (p.holeBirth g).sched = p.sched := by unfold Part.holeBirth; (try dsimp only); (repeat' split) <;> simp
@[simp] theorem Part.holeBirth_head (g : Gap) : (p.holeBirth g).head = p.head := by unfold Part.holeBirth; (try dsimp only); (repeat' split) <;> simp
@[simp] theorem Part.holeBirth_belt (g : Gap) : (p.holeBirth g).belt = p.belt := by unfold Part.holeBirth; (try dsimp only); (repeat' split) <;> simp
@[simp] theorem Part.holeBirth_setup (g : Gap) : (p.holeBirth g).setup = p.setup := by unfold Part.holeBirth; (try dsimp only); (repeat' split) <;> simp
@[simp] theorem Part.holeBirth_free (g : Gap) : (p.holeBirth g).free = p.free := by unfold Part.holeBirth; (try dsimp only); (repeat' split) <;> simp

@[simp] theorem Part.absorbHole_intake (b a : Nat) : (p.absorbHole b a).intake = p.intake := by unfold Part.absorbHole; (try dsimp only); (repeat' split) <;> simp
@[simp] theorem Part.absorbHole_tracker (b a : Nat) : (p.absorbHole b a).tracker = p.tracker := by unfold Part.absorbHole; (try dsimp only); (repeat' split) <;> simp
@[simp] theorem Part.absorbHole_sched (b a : Nat) : (p.absorbHole b a).sched = p.sched := by unfold Part.absorbHole; (try dsimp only); (repeat' split) <;> simp
@[simp] theorem Part.absorbHole_head (b a : Nat) : (p.absorbHole b a).head = p.head := by unfold Part.absorbHole; (try dsimp only); (repeat' split) <;> simp
@[simp] theorem Part.absorbHole_belt (b a : Nat) : (p.absorbHole b a).belt = p.belt := by unfold Part.absorbHole; (try dsimp only); (repeat' split) <;> simp
@[simp] theorem Part.absorbHole_lots (b a : Nat) : (p.absorbHole b a).lots = p.lots := by unfold Part.absorbHole; (try dsimp only); (repeat' split) <;> simp
@[simp] theorem Part.absorbHole_setup (b a : Nat) : (p.absorbHole b a).setup = p.setup := by unfold Part.absorbHole; (try dsimp only); (repeat' split) <;> simp
@[simp] theorem Part.absorbHole_recorder (b a : Nat) : (p.absorbHole b a).recorder = p.recorder := by unfold Part.absorbHole; (try dsimp only); (repeat' split) <;> simp
@[simp] theorem Part.absorbHole_dirty (b a : Nat) : (p.absorbHole b a).dirty = p.dirty := by unfold Part.absorbHole; (try dsimp only); (repeat' split) <;> simp
@[simp] theorem Part.absorbHole_free (b a : Nat) : (p.absorbHole b a).free = p.free := by unfold Part.absorbHole; (try dsimp only); (repeat' split) <;> simp

@[simp] theorem Part.holeContinue_intake (g : Gap) (hs : List Nat) : (p.holeContinue g hs).intake = p.intake := by
  cases hs with
  | nil => rfl
  | cons h hs =>
    unfold Part.holeContinue
    simp only [Part.addRun_intake, Part.setHole_intake]
    exact foldl_keep (f := Part.intake) (by simp) _ _
@[simp] theorem Part.holeContinue_tracker (g : Gap) (hs : List Nat) : (p.holeContinue g hs).tracker = p.tracker := by
  cases hs with
  | nil => rfl
  | cons h hs =>
    unfold Part.holeContinue
    simp only [Part.addRun_tracker, Part.setHole_tracker]
    exact foldl_keep (f := Part.tracker) (by simp) _ _
@[simp] theorem Part.holeContinue_sched (g : Gap) (hs : List Nat) : (p.holeContinue g hs).sched = p.sched := by
  cases hs with
  | nil => rfl
  | cons h hs =>
    unfold Part.holeContinue
    simp only [Part.addRun_sched, Part.setHole_sched]
    exact foldl_keep (f := Part.sched) (by simp) _ _
@[simp] theorem Part.holeContinue_head (g : Gap) (hs : List Nat) : (p.holeContinue g hs).head = p.head := by
  cases hs with
  | nil => rfl
  | cons h hs =>
    unfold Part.holeContinue
    simp only [Part.addRun_head, Part.setHole_head]
    exact foldl_keep (f := Part.head) (by simp) _ _
@[simp] theorem Part.holeContinue_belt (g : Gap) (hs : List Nat) : (p.holeContinue g hs).belt = p.belt := by
  cases hs with
  | nil => rfl
  | cons h hs =>
    unfold Part.holeContinue
    simp only [Part.addRun_belt, Part.setHole_belt]
    exact foldl_keep (f := Part.belt) (by simp) _ _
@[simp] theorem Part.holeContinue_lots (g : Gap) (hs : List Nat) : (p.holeContinue g hs).lots = p.lots := by
  cases hs with
  | nil => rfl
  | cons h hs =>
    unfold Part.holeContinue
    simp only [Part.addRun_lots, Part.setHole_lots]
    exact foldl_keep (f := Part.lots) (by simp) _ _
@[simp] theorem Part.holeContinue_setup (g : Gap) (hs : List Nat) : (p.holeContinue g hs).setup = p.setup := by
  cases hs with
  | nil => rfl
  | cons h hs =>
    unfold Part.holeContinue
    simp only [Part.addRun_setup, Part.setHole_setup]
    exact foldl_keep (f := Part.setup) (by simp) _ _
@[simp] theorem Part.holeContinue_recorder (g : Gap) (hs : List Nat) : (p.holeContinue g hs).recorder = p.recorder := by
  cases hs with
  | nil => rfl
  | cons h hs =>
    unfold Part.holeContinue
    simp only [Part.addRun_recorder, Part.setHole_recorder]
    exact foldl_keep (f := Part.recorder) (by simp) _ _
@[simp] theorem Part.holeContinue_dirty (g : Gap) (hs : List Nat) : (p.holeContinue g hs).dirty = p.dirty := by
  cases hs with
  | nil => rfl
  | cons h hs =>
    unfold Part.holeContinue
    simp only [Part.addRun_dirty, Part.setHole_dirty]
    exact foldl_keep (f := Part.dirty) (by simp) _ _
@[simp] theorem Part.holeContinue_free (g : Gap) (hs : List Nat) : (p.holeContinue g hs).free = p.free := by
  cases hs with
  | nil => rfl
  | cons h hs =>
    unfold Part.holeContinue
    simp only [Part.addRun_free, Part.setHole_free]
    exact foldl_keep (f := Part.free) (by simp) _ _

@[simp] theorem Part.breachOver_intake (g : Gap) : (p.breachOver g).intake = p.intake := by
  unfold Part.breachOver
  exact foldl_keep (f := Part.intake) (by simp) _ _
@[simp] theorem Part.breachOver_sched (g : Gap) : (p.breachOver g).sched = p.sched := by
  unfold Part.breachOver
  exact foldl_keep (f := Part.sched) (by simp) _ _
@[simp] theorem Part.breachOver_head (g : Gap) : (p.breachOver g).head = p.head := by
  unfold Part.breachOver
  exact foldl_keep (f := Part.head) (by simp) _ _
@[simp] theorem Part.breachOver_belt (g : Gap) : (p.breachOver g).belt = p.belt := by
  unfold Part.breachOver
  exact foldl_keep (f := Part.belt) (by simp) _ _
@[simp] theorem Part.breachOver_lots (g : Gap) : (p.breachOver g).lots = p.lots := by
  unfold Part.breachOver
  exact foldl_keep (f := Part.lots) (by simp) _ _
@[simp] theorem Part.breachOver_setup (g : Gap) : (p.breachOver g).setup = p.setup := by
  unfold Part.breachOver
  exact foldl_keep (f := Part.setup) (by simp) _ _
@[simp] theorem Part.breachOver_recorder (g : Gap) : (p.breachOver g).recorder = p.recorder := by
  unfold Part.breachOver
  exact foldl_keep (f := Part.recorder) (by simp) _ _
@[simp] theorem Part.breachOver_dirty (g : Gap) : (p.breachOver g).dirty = p.dirty := by
  unfold Part.breachOver
  exact foldl_keep (f := Part.dirty) (by simp) _ _
@[simp] theorem Part.breachOver_free (g : Gap) : (p.breachOver g).free = p.free := by
  unfold Part.breachOver
  exact foldl_keep (f := Part.free) (by simp) _ _

@[simp] theorem Part.classifyGap_intake (g : Gap) : (p.classifyGap g).intake = p.intake := by unfold Part.classifyGap; (try dsimp only); (repeat' split) <;> simp
@[simp] theorem Part.classifyGap_sched (g : Gap) : (p.classifyGap g).sched = p.sched := by unfold Part.classifyGap; (try dsimp only); (repeat' split) <;> simp
@[simp] theorem Part.classifyGap_head (g : Gap) : (p.classifyGap g).head = p.head := by unfold Part.classifyGap; (try dsimp only); (repeat' split) <;> simp
@[simp] theorem Part.classifyGap_belt (g : Gap) : (p.classifyGap g).belt = p.belt := by unfold Part.classifyGap; (try dsimp only); (repeat' split) <;> simp
@[simp] theorem Part.classifyGap_setup (g : Gap) : (p.classifyGap g).setup = p.setup := by unfold Part.classifyGap; (try dsimp only); (repeat' split) <;> simp
@[simp] theorem Part.classifyGap_free (g : Gap) : (p.classifyGap g).free = p.free := by unfold Part.classifyGap; (try dsimp only); (repeat' split) <;> simp

@[simp] theorem Part.checkHole_intake (h : Nat) : (p.checkHole h).intake = p.intake := by unfold Part.checkHole; (try dsimp only); (repeat' split) <;> simp
@[simp] theorem Part.checkHole_sched (h : Nat) : (p.checkHole h).sched = p.sched := by unfold Part.checkHole; (try dsimp only); (repeat' split) <;> simp
@[simp] theorem Part.checkHole_head (h : Nat) : (p.checkHole h).head = p.head := by unfold Part.checkHole; (try dsimp only); (repeat' split) <;> simp
@[simp] theorem Part.checkHole_belt (h : Nat) : (p.checkHole h).belt = p.belt := by unfold Part.checkHole; (try dsimp only); (repeat' split) <;> simp
@[simp] theorem Part.checkHole_lots (h : Nat) : (p.checkHole h).lots = p.lots := by unfold Part.checkHole; (try dsimp only); (repeat' split) <;> simp
@[simp] theorem Part.checkHole_setup (h : Nat) : (p.checkHole h).setup = p.setup := by unfold Part.checkHole; (try dsimp only); (repeat' split) <;> simp
@[simp] theorem Part.checkHole_recorder (h : Nat) : (p.checkHole h).recorder = p.recorder := by unfold Part.checkHole; (try dsimp only); (repeat' split) <;> simp
@[simp] theorem Part.checkHole_dirty (h : Nat) : (p.checkHole h).dirty = p.dirty := by unfold Part.checkHole; (try dsimp only); (repeat' split) <;> simp
@[simp] theorem Part.checkHole_free (h : Nat) : (p.checkHole h).free = p.free := by unfold Part.checkHole; (try dsimp only); (repeat' split) <;> simp

@[simp] theorem Part.checkHoles_intake : (p.checkHoles).intake = p.intake := by
  unfold Part.checkHoles
  exact foldl_keep (f := Part.intake) (by simp) _ _
@[simp] theorem Part.checkHoles_sched : (p.checkHoles).sched = p.sched := by
  unfold Part.checkHoles
  exact foldl_keep (f := Part.sched) (by simp) _ _
@[simp] theorem Part.checkHoles_head : (p.checkHoles).head = p.head := by
  unfold Part.checkHoles
  exact foldl_keep (f := Part.head) (by simp) _ _
@[simp] theorem Part.checkHoles_belt : (p.checkHoles).belt = p.belt := by
  unfold Part.checkHoles
  exact foldl_keep (f := Part.belt) (by simp) _ _
@[simp] theorem Part.checkHoles_lots : (p.checkHoles).lots = p.lots := by
  unfold Part.checkHoles
  exact foldl_keep (f := Part.lots) (by simp) _ _
@[simp] theorem Part.checkHoles_setup : (p.checkHoles).setup = p.setup := by
  unfold Part.checkHoles
  exact foldl_keep (f := Part.setup) (by simp) _ _
@[simp] theorem Part.checkHoles_recorder : (p.checkHoles).recorder = p.recorder := by
  unfold Part.checkHoles
  exact foldl_keep (f := Part.recorder) (by simp) _ _
@[simp] theorem Part.checkHoles_dirty : (p.checkHoles).dirty = p.dirty := by
  unfold Part.checkHoles
  exact foldl_keep (f := Part.dirty) (by simp) _ _
@[simp] theorem Part.checkHoles_free : (p.checkHoles).free = p.free := by
  unfold Part.checkHoles
  exact foldl_keep (f := Part.free) (by simp) _ _

@[simp] theorem Part.breachOwned_intake (o : Owner) : (p.breachOwned o).intake = p.intake := by
  cases o with
  | spill => rfl
  | entry e => unfold Part.breachOwned; exact foldl_keep (f := Part.intake) (by simp) _ _
@[simp] theorem Part.breachOwned_sched (o : Owner) : (p.breachOwned o).sched = p.sched := by
  cases o with
  | spill => rfl
  | entry e => unfold Part.breachOwned; exact foldl_keep (f := Part.sched) (by simp) _ _
@[simp] theorem Part.breachOwned_head (o : Owner) : (p.breachOwned o).head = p.head := by
  cases o with
  | spill => rfl
  | entry e => unfold Part.breachOwned; exact foldl_keep (f := Part.head) (by simp) _ _
@[simp] theorem Part.breachOwned_belt (o : Owner) : (p.breachOwned o).belt = p.belt := by
  cases o with
  | spill => rfl
  | entry e => unfold Part.breachOwned; exact foldl_keep (f := Part.belt) (by simp) _ _
@[simp] theorem Part.breachOwned_lots (o : Owner) : (p.breachOwned o).lots = p.lots := by
  cases o with
  | spill => rfl
  | entry e => unfold Part.breachOwned; exact foldl_keep (f := Part.lots) (by simp) _ _
@[simp] theorem Part.breachOwned_setup (o : Owner) : (p.breachOwned o).setup = p.setup := by
  cases o with
  | spill => rfl
  | entry e => unfold Part.breachOwned; exact foldl_keep (f := Part.setup) (by simp) _ _
@[simp] theorem Part.breachOwned_recorder (o : Owner) : (p.breachOwned o).recorder = p.recorder := by
  cases o with
  | spill => rfl
  | entry e => unfold Part.breachOwned; exact foldl_keep (f := Part.recorder) (by simp) _ _
@[simp] theorem Part.breachOwned_dirty (o : Owner) : (p.breachOwned o).dirty = p.dirty := by
  cases o with
  | spill => rfl
  | entry e => unfold Part.breachOwned; exact foldl_keep (f := Part.dirty) (by simp) _ _
@[simp] theorem Part.breachOwned_free (o : Owner) : (p.breachOwned o).free = p.free := by
  cases o with
  | spill => rfl
  | entry e => unfold Part.breachOwned; exact foldl_keep (f := Part.free) (by simp) _ _

@[simp] theorem Part.reownHoles_intake (a b : Nat) : (p.reownHoles a b).intake = p.intake := rfl
@[simp] theorem Part.reownHoles_tracker (a b : Nat) : (p.reownHoles a b).tracker = p.tracker := rfl
@[simp] theorem Part.reownHoles_sched (a b : Nat) : (p.reownHoles a b).sched = p.sched := rfl
@[simp] theorem Part.reownHoles_head (a b : Nat) : (p.reownHoles a b).head = p.head := rfl
@[simp] theorem Part.reownHoles_belt (a b : Nat) : (p.reownHoles a b).belt = p.belt := rfl
@[simp] theorem Part.reownHoles_lots (a b : Nat) : (p.reownHoles a b).lots = p.lots := rfl
@[simp] theorem Part.reownHoles_setup (a b : Nat) : (p.reownHoles a b).setup = p.setup := rfl
@[simp] theorem Part.reownHoles_recorder (a b : Nat) : (p.reownHoles a b).recorder = p.recorder := rfl
@[simp] theorem Part.reownHoles_dirty (a b : Nat) : (p.reownHoles a b).dirty = p.dirty := rfl
@[simp] theorem Part.reownHoles_free (a b : Nat) : (p.reownHoles a b).free = p.free := rfl

@[simp] theorem Part.absorbOwner_intake (b : Nat) (a : Owner) : (p.absorbOwner b a).intake = p.intake := by unfold Part.absorbOwner; split <;> (try dsimp only) <;> (try cases a) <;> simp
@[simp] theorem Part.absorbOwner_sched (b : Nat) (a : Owner) : (p.absorbOwner b a).sched = p.sched := by unfold Part.absorbOwner; split <;> (try dsimp only) <;> (try cases a) <;> simp
@[simp] theorem Part.absorbOwner_head (b : Nat) (a : Owner) : (p.absorbOwner b a).head = p.head := by unfold Part.absorbOwner; split <;> (try dsimp only) <;> (try cases a) <;> simp
@[simp] theorem Part.absorbOwner_belt (b : Nat) (a : Owner) : (p.absorbOwner b a).belt = p.belt := by unfold Part.absorbOwner; split <;> (try dsimp only) <;> (try cases a) <;> simp
@[simp] theorem Part.absorbOwner_lots (b : Nat) (a : Owner) : (p.absorbOwner b a).lots = p.lots := by unfold Part.absorbOwner; split <;> (try dsimp only) <;> (try cases a) <;> simp
@[simp] theorem Part.absorbOwner_setup (b : Nat) (a : Owner) : (p.absorbOwner b a).setup = p.setup := by unfold Part.absorbOwner; split <;> (try dsimp only) <;> (try cases a) <;> simp
@[simp] theorem Part.absorbOwner_recorder (b : Nat) (a : Owner) : (p.absorbOwner b a).recorder = p.recorder := by unfold Part.absorbOwner; split <;> (try dsimp only) <;> (try cases a) <;> simp
@[simp] theorem Part.absorbOwner_dirty (b : Nat) (a : Owner) : (p.absorbOwner b a).dirty = p.dirty := by unfold Part.absorbOwner; split <;> (try dsimp only) <;> (try cases a) <;> simp
@[simp] theorem Part.absorbOwner_free (b : Nat) (a : Owner) : (p.absorbOwner b a).free = p.free := by unfold Part.absorbOwner; split <;> (try dsimp only) <;> (try cases a) <;> simp

@[simp] theorem Part.birthAt_intake (o : Owner) (g : SegPlan) : (p.birthAt o g).intake = p.intake := by unfold Part.birthAt; simp
@[simp] theorem Part.birthAt_holes (o : Owner) (g : SegPlan) : (p.birthAt o g).holes = p.holes := by unfold Part.birthAt; simp
@[simp] theorem Part.birthAt_sched (o : Owner) (g : SegPlan) : (p.birthAt o g).sched = p.sched := by unfold Part.birthAt; simp
@[simp] theorem Part.birthAt_head (o : Owner) (g : SegPlan) : (p.birthAt o g).head = p.head := by unfold Part.birthAt; simp
@[simp] theorem Part.birthAt_belt (o : Owner) (g : SegPlan) : (p.birthAt o g).belt = p.belt := by unfold Part.birthAt; simp
@[simp] theorem Part.birthAt_recorder (o : Owner) (g : SegPlan) : (p.birthAt o g).recorder = p.recorder := by unfold Part.birthAt; simp
@[simp] theorem Part.birthAt_free (o : Owner) (g : SegPlan) : (p.birthAt o g).free = p.free := by unfold Part.birthAt; simp

@[simp] theorem Part.birth_intake (g : SegPlan) : (p.birth g).2.intake = p.intake := by unfold Part.birth; (try dsimp only); (repeat' split) <;> simp
@[simp] theorem Part.birth_holes (g : SegPlan) : (p.birth g).2.holes = p.holes := by unfold Part.birth; (try dsimp only); (repeat' split) <;> simp
@[simp] theorem Part.birth_sched (g : SegPlan) : (p.birth g).2.sched = p.sched := by unfold Part.birth; (try dsimp only); (repeat' split) <;> simp
@[simp] theorem Part.birth_head (g : SegPlan) : (p.birth g).2.head = p.head := by unfold Part.birth; (try dsimp only); (repeat' split) <;> simp
@[simp] theorem Part.birth_belt (g : SegPlan) : (p.birth g).2.belt = p.belt := by unfold Part.birth; (try dsimp only); (repeat' split) <;> simp
@[simp] theorem Part.birth_free (g : SegPlan) : (p.birth g).2.free = p.free := by unfold Part.birth; (try dsimp only); (repeat' split) <;> simp

@[simp] theorem Part.mergeOwners_intake (os : List Owner) : (p.mergeOwners os).2.intake = p.intake := by
  unfold Part.mergeOwners
  split
  · rfl
  · split
    · rfl
    · dsimp only
      split
      · rw [Part.absorbOwner_intake]; exact foldl_keep (f := Part.intake) (by simp) _ _
      · exact foldl_keep (f := Part.intake) (by simp) _ _
@[simp] theorem Part.mergeOwners_sched (os : List Owner) : (p.mergeOwners os).2.sched = p.sched := by
  unfold Part.mergeOwners
  split
  · rfl
  · split
    · rfl
    · dsimp only
      split
      · rw [Part.absorbOwner_sched]; exact foldl_keep (f := Part.sched) (by simp) _ _
      · exact foldl_keep (f := Part.sched) (by simp) _ _
@[simp] theorem Part.mergeOwners_head (os : List Owner) : (p.mergeOwners os).2.head = p.head := by
  unfold Part.mergeOwners
  split
  · rfl
  · split
    · rfl
    · dsimp only
      split
      · rw [Part.absorbOwner_head]; exact foldl_keep (f := Part.head) (by simp) _ _
      · exact foldl_keep (f := Part.head) (by simp) _ _
@[simp] theorem Part.mergeOwners_belt (os : List Owner) : (p.mergeOwners os).2.belt = p.belt := by
  unfold Part.mergeOwners
  split
  · rfl
  · split
    · rfl
    · dsimp only
      split
      · rw [Part.absorbOwner_belt]; exact foldl_keep (f := Part.belt) (by simp) _ _
      · exact foldl_keep (f := Part.belt) (by simp) _ _
@[simp] theorem Part.mergeOwners_lots (os : List Owner) : (p.mergeOwners os).2.lots = p.lots := by
  unfold Part.mergeOwners
  split
  · rfl
  · split
    · rfl
    · dsimp only
      split
      · rw [Part.absorbOwner_lots]; exact foldl_keep (f := Part.lots) (by simp) _ _
      · exact foldl_keep (f := Part.lots) (by simp) _ _
@[simp] theorem Part.mergeOwners_setup (os : List Owner) : (p.mergeOwners os).2.setup = p.setup := by
  unfold Part.mergeOwners
  split
  · rfl
  · split
    · rfl
    · dsimp only
      split
      · rw [Part.absorbOwner_setup]; exact foldl_keep (f := Part.setup) (by simp) _ _
      · exact foldl_keep (f := Part.setup) (by simp) _ _
@[simp] theorem Part.mergeOwners_recorder (os : List Owner) : (p.mergeOwners os).2.recorder = p.recorder := by
  unfold Part.mergeOwners
  split
  · rfl
  · split
    · rfl
    · dsimp only
      split
      · rw [Part.absorbOwner_recorder]; exact foldl_keep (f := Part.recorder) (by simp) _ _
      · exact foldl_keep (f := Part.recorder) (by simp) _ _
@[simp] theorem Part.mergeOwners_dirty (os : List Owner) : (p.mergeOwners os).2.dirty = p.dirty := by
  unfold Part.mergeOwners
  split
  · rfl
  · split
    · rfl
    · dsimp only
      split
      · rw [Part.absorbOwner_dirty]; exact foldl_keep (f := Part.dirty) (by simp) _ _
      · exact foldl_keep (f := Part.dirty) (by simp) _ _
@[simp] theorem Part.mergeOwners_free (os : List Owner) : (p.mergeOwners os).2.free = p.free := by
  unfold Part.mergeOwners
  split
  · rfl
  · split
    · rfl
    · dsimp only
      split
      · rw [Part.absorbOwner_free]; exact foldl_keep (f := Part.free) (by simp) _ _
      · exact foldl_keep (f := Part.free) (by simp) _ _

@[simp] theorem Part.flagFragment_intake (o : Owner) : (p.flagFragment o).intake = p.intake := by unfold Part.flagFragment; (try dsimp only); (repeat' split) <;> simp
@[simp] theorem Part.flagFragment_holes (o : Owner) : (p.flagFragment o).holes = p.holes := by unfold Part.flagFragment; (try dsimp only); (repeat' split) <;> simp
@[simp] theorem Part.flagFragment_sched (o : Owner) : (p.flagFragment o).sched = p.sched := by unfold Part.flagFragment; (try dsimp only); (repeat' split) <;> simp
@[simp] theorem Part.flagFragment_head (o : Owner) : (p.flagFragment o).head = p.head := by unfold Part.flagFragment; (try dsimp only); (repeat' split) <;> simp
@[simp] theorem Part.flagFragment_belt (o : Owner) : (p.flagFragment o).belt = p.belt := by unfold Part.flagFragment; (try dsimp only); (repeat' split) <;> simp
@[simp] theorem Part.flagFragment_setup (o : Owner) : (p.flagFragment o).setup = p.setup := by unfold Part.flagFragment; (try dsimp only); (repeat' split) <;> simp
@[simp] theorem Part.flagFragment_free (o : Owner) : (p.flagFragment o).free = p.free := by unfold Part.flagFragment; (try dsimp only); (repeat' split) <;> simp

@[simp] theorem Part.ownSegment_intake (g : SegPlan) : (p.ownSegment g).intake = p.intake := by unfold Part.ownSegment; dsimp only; split <;> split <;> simp
@[simp] theorem Part.ownSegment_sched (g : SegPlan) : (p.ownSegment g).sched = p.sched := by unfold Part.ownSegment; dsimp only; split <;> split <;> simp
@[simp] theorem Part.ownSegment_head (g : SegPlan) : (p.ownSegment g).head = p.head := by unfold Part.ownSegment; dsimp only; split <;> split <;> simp
@[simp] theorem Part.ownSegment_belt (g : SegPlan) : (p.ownSegment g).belt = p.belt := by unfold Part.ownSegment; dsimp only; split <;> split <;> simp
@[simp] theorem Part.ownSegment_free (g : SegPlan) : (p.ownSegment g).free = p.free := by unfold Part.ownSegment; dsimp only; split <;> split <;> simp

@[simp] theorem Part.accumulate_intake (r : CondRow) : (p.accumulate r).intake = p.intake := by
  unfold Part.accumulate
  dsimp only
  rw [foldl_keep (f := Part.intake) (by simp), foldl_keep (f := Part.intake) (by simp)]
@[simp] theorem Part.accumulate_holes (r : CondRow) : (p.accumulate r).holes = p.holes := by
  unfold Part.accumulate
  dsimp only
  rw [foldl_keep (f := Part.holes) (by simp), foldl_keep (f := Part.holes) (by simp)]
@[simp] theorem Part.accumulate_sched (r : CondRow) : (p.accumulate r).sched = p.sched := by
  unfold Part.accumulate
  dsimp only
  rw [foldl_keep (f := Part.sched) (by simp), foldl_keep (f := Part.sched) (by simp)]
@[simp] theorem Part.accumulate_head (r : CondRow) : (p.accumulate r).head = p.head := by
  unfold Part.accumulate
  dsimp only
  rw [foldl_keep (f := Part.head) (by simp), foldl_keep (f := Part.head) (by simp)]
@[simp] theorem Part.accumulate_belt (r : CondRow) : (p.accumulate r).belt = p.belt := by
  unfold Part.accumulate
  dsimp only
  rw [foldl_keep (f := Part.belt) (by simp), foldl_keep (f := Part.belt) (by simp)]
@[simp] theorem Part.accumulate_lots (r : CondRow) : (p.accumulate r).lots = p.lots := by
  unfold Part.accumulate
  dsimp only
  rw [foldl_keep (f := Part.lots) (by simp), foldl_keep (f := Part.lots) (by simp)]
@[simp] theorem Part.accumulate_setup (r : CondRow) : (p.accumulate r).setup = p.setup := by
  unfold Part.accumulate
  dsimp only
  rw [foldl_keep (f := Part.setup) (by simp), foldl_keep (f := Part.setup) (by simp)]
@[simp] theorem Part.accumulate_recorder (r : CondRow) : (p.accumulate r).recorder = p.recorder := by
  unfold Part.accumulate
  dsimp only
  rw [foldl_keep (f := Part.recorder) (by simp), foldl_keep (f := Part.recorder) (by simp)]
@[simp] theorem Part.accumulate_dirty (r : CondRow) : (p.accumulate r).dirty = p.dirty := by
  unfold Part.accumulate
  dsimp only
  rw [foldl_keep (f := Part.dirty) (by simp), foldl_keep (f := Part.dirty) (by simp)]
@[simp] theorem Part.accumulate_free (r : CondRow) : (p.accumulate r).free = p.free := by
  unfold Part.accumulate
  dsimp only
  rw [foldl_keep (f := Part.free) (by simp), foldl_keep (f := Part.free) (by simp)]

@[simp] theorem Part.noteClosed_intake (o : Owner) (h : Hide) : (p.noteClosed o h).intake = p.intake := by unfold Part.noteClosed; (try dsimp only); (repeat' split) <;> simp
@[simp] theorem Part.noteClosed_tracker (o : Owner) (h : Hide) : (p.noteClosed o h).tracker = p.tracker := by unfold Part.noteClosed; (try dsimp only); (repeat' split) <;> simp
@[simp] theorem Part.noteClosed_holes (o : Owner) (h : Hide) : (p.noteClosed o h).holes = p.holes := by unfold Part.noteClosed; (try dsimp only); (repeat' split) <;> simp
@[simp] theorem Part.noteClosed_sched (o : Owner) (h : Hide) : (p.noteClosed o h).sched = p.sched := by unfold Part.noteClosed; (try dsimp only); (repeat' split) <;> simp
@[simp] theorem Part.noteClosed_head (o : Owner) (h : Hide) : (p.noteClosed o h).head = p.head := by unfold Part.noteClosed; (try dsimp only); (repeat' split) <;> simp
@[simp] theorem Part.noteClosed_belt (o : Owner) (h : Hide) : (p.noteClosed o h).belt = p.belt := by unfold Part.noteClosed; (try dsimp only); (repeat' split) <;> simp
@[simp] theorem Part.noteClosed_setup (o : Owner) (h : Hide) : (p.noteClosed o h).setup = p.setup := by unfold Part.noteClosed; (try dsimp only); (repeat' split) <;> simp
@[simp] theorem Part.noteClosed_recorder (o : Owner) (h : Hide) : (p.noteClosed o h).recorder = p.recorder := by unfold Part.noteClosed; (try dsimp only); (repeat' split) <;> simp
@[simp] theorem Part.noteClosed_dirty (o : Owner) (h : Hide) : (p.noteClosed o h).dirty = p.dirty := by unfold Part.noteClosed; (try dsimp only); (repeat' split) <;> simp
@[simp] theorem Part.noteClosed_free (o : Owner) (h : Hide) : (p.noteClosed o h).free = p.free := by unfold Part.noteClosed; (try dsimp only); (repeat' split) <;> simp

@[simp] theorem Part.closeHide_intake (c : CloseCause) (o : Owner) : (p.closeHide c o).intake = p.intake := by unfold Part.closeHide; (try dsimp only); (repeat' split) <;> simp
@[simp] theorem Part.closeHide_belt (c : CloseCause) (o : Owner) : (p.closeHide c o).belt = p.belt := by unfold Part.closeHide; (try dsimp only); (repeat' split) <;> simp
@[simp] theorem Part.closeHide_free (c : CloseCause) (o : Owner) : (p.closeHide c o).free = p.free := by unfold Part.closeHide; (try dsimp only); (repeat' split) <;> simp

@[simp] theorem Part.searchSites_intake (hs : List Nat) (ss : List Seg) (done : List Nat) : (p.searchSites hs ss done).intake = p.intake := by
  induction ss generalizing p done with
  | nil => rfl
  | cons s ss ih => unfold Part.searchSites; (repeat' split) <;> simp [ih]
@[simp] theorem Part.searchSites_holes (hs : List Nat) (ss : List Seg) (done : List Nat) : (p.searchSites hs ss done).holes = p.holes := by
  induction ss generalizing p done with
  | nil => rfl
  | cons s ss ih => unfold Part.searchSites; (repeat' split) <;> simp [ih]
@[simp] theorem Part.searchSites_sched (hs : List Nat) (ss : List Seg) (done : List Nat) : (p.searchSites hs ss done).sched = p.sched := by
  induction ss generalizing p done with
  | nil => rfl
  | cons s ss ih => unfold Part.searchSites; (repeat' split) <;> simp [ih]
@[simp] theorem Part.searchSites_head (hs : List Nat) (ss : List Seg) (done : List Nat) : (p.searchSites hs ss done).head = p.head := by
  induction ss generalizing p done with
  | nil => rfl
  | cons s ss ih => unfold Part.searchSites; (repeat' split) <;> simp [ih]
@[simp] theorem Part.searchSites_belt (hs : List Nat) (ss : List Seg) (done : List Nat) : (p.searchSites hs ss done).belt = p.belt := by
  induction ss generalizing p done with
  | nil => rfl
  | cons s ss ih => unfold Part.searchSites; (repeat' split) <;> simp [ih]
@[simp] theorem Part.searchSites_lots (hs : List Nat) (ss : List Seg) (done : List Nat) : (p.searchSites hs ss done).lots = p.lots := by
  induction ss generalizing p done with
  | nil => rfl
  | cons s ss ih => unfold Part.searchSites; (repeat' split) <;> simp [ih]
@[simp] theorem Part.searchSites_setup (hs : List Nat) (ss : List Seg) (done : List Nat) : (p.searchSites hs ss done).setup = p.setup := by
  induction ss generalizing p done with
  | nil => rfl
  | cons s ss ih => unfold Part.searchSites; (repeat' split) <;> simp [ih]
@[simp] theorem Part.searchSites_recorder (hs : List Nat) (ss : List Seg) (done : List Nat) : (p.searchSites hs ss done).recorder = p.recorder := by
  induction ss generalizing p done with
  | nil => rfl
  | cons s ss ih => unfold Part.searchSites; (repeat' split) <;> simp [ih]
@[simp] theorem Part.searchSites_dirty (hs : List Nat) (ss : List Seg) (done : List Nat) : (p.searchSites hs ss done).dirty = p.dirty := by
  induction ss generalizing p done with
  | nil => rfl
  | cons s ss ih => unfold Part.searchSites; (repeat' split) <;> simp [ih]
@[simp] theorem Part.searchSites_free (hs : List Nat) (ss : List Seg) (done : List Nat) : (p.searchSites hs ss done).free = p.free := by
  induction ss generalizing p done with
  | nil => rfl
  | cons s ss ih => unfold Part.searchSites; (repeat' split) <;> simp [ih]

@[simp] theorem Part.siteStage_intake (r : CondRow) : (p.siteStage r).intake = p.intake := by unfold Part.siteStage; (try dsimp only); (repeat' split) <;> simp
@[simp] theorem Part.siteStage_holes (r : CondRow) : (p.siteStage r).holes = p.holes := by unfold Part.siteStage; (try dsimp only); (repeat' split) <;> simp
@[simp] theorem Part.siteStage_head (r : CondRow) : (p.siteStage r).head = p.head := by unfold Part.siteStage; (try dsimp only); (repeat' split) <;> simp
@[simp] theorem Part.siteStage_belt (r : CondRow) : (p.siteStage r).belt = p.belt := by unfold Part.siteStage; (try dsimp only); (repeat' split) <;> simp
@[simp] theorem Part.siteStage_lots (r : CondRow) : (p.siteStage r).lots = p.lots := by unfold Part.siteStage; (try dsimp only); (repeat' split) <;> simp
@[simp] theorem Part.siteStage_setup (r : CondRow) : (p.siteStage r).setup = p.setup := by unfold Part.siteStage; (try dsimp only); (repeat' split) <;> simp
@[simp] theorem Part.siteStage_recorder (r : CondRow) : (p.siteStage r).recorder = p.recorder := by unfold Part.siteStage; (try dsimp only); (repeat' split) <;> simp
@[simp] theorem Part.siteStage_dirty (r : CondRow) : (p.siteStage r).dirty = p.dirty := by unfold Part.siteStage; (try dsimp only); (repeat' split) <;> simp
@[simp] theorem Part.siteStage_free (r : CondRow) : (p.siteStage r).free = p.free := by unfold Part.siteStage; (try dsimp only); (repeat' split) <;> simp

@[simp] theorem Part.quietTests_tracker : (p.quietTests).tracker = p.tracker := by unfold Part.quietTests; (try dsimp only); (repeat' split) <;> simp
@[simp] theorem Part.quietTests_holes : (p.quietTests).holes = p.holes := by unfold Part.quietTests; (try dsimp only); (repeat' split) <;> simp
@[simp] theorem Part.quietTests_sched : (p.quietTests).sched = p.sched := by unfold Part.quietTests; (try dsimp only); (repeat' split) <;> simp
@[simp] theorem Part.quietTests_head : (p.quietTests).head = p.head := by unfold Part.quietTests; (try dsimp only); (repeat' split) <;> simp
@[simp] theorem Part.quietTests_belt : (p.quietTests).belt = p.belt := by unfold Part.quietTests; (try dsimp only); (repeat' split) <;> simp
@[simp] theorem Part.quietTests_free : (p.quietTests).free = p.free := by unfold Part.quietTests; (try dsimp only); (repeat' split) <;> simp

@[simp] theorem Part.closeAll_intake (c : CloseCause) (os : List Owner) : (p.closeAll c os).intake = p.intake := by
  unfold Part.closeAll
  exact foldl_keep (f := Part.intake) (by simp) _ _
@[simp] theorem Part.closeAll_belt (c : CloseCause) (os : List Owner) : (p.closeAll c os).belt = p.belt := by
  unfold Part.closeAll
  exact foldl_keep (f := Part.belt) (by simp) _ _
@[simp] theorem Part.closeAll_free (c : CloseCause) (os : List Owner) : (p.closeAll c os).free = p.free := by
  unfold Part.closeAll
  exact foldl_keep (f := Part.free) (by simp) _ _

@[simp] theorem Part.takeRestart_belt : (p.takeRestart).belt = p.belt := by unfold Part.takeRestart; simp
@[simp] theorem Part.takeRestart_free : (p.takeRestart).free = p.free := by unfold Part.takeRestart; simp

@[simp] theorem Part.takeRestarts_belt (n : Nat) : (p.takeRestarts n).belt = p.belt := by
  induction n generalizing p with
  | zero => rfl
  | succ n ih => unfold Part.takeRestarts; simp [ih]
@[simp] theorem Part.takeRestarts_free (n : Nat) : (p.takeRestarts n).free = p.free := by
  induction n generalizing p with
  | zero => rfl
  | succ n ih => unfold Part.takeRestarts; simp [ih]

@[simp] theorem Part.passEnd_belt : (p.passEnd).belt = p.belt := by unfold Part.passEnd; dsimp only; (repeat' split) <;> simp

@[simp] theorem Part.exchangeLists_belt : (p.exchangeLists).belt = p.belt := by unfold Part.exchangeLists; (try dsimp only); (repeat' split) <;> simp

@[simp] theorem Part.takeRow_holes : (p.takeRow).holes = p.holes := by unfold Part.takeRow; (try dsimp only); (repeat' split) <;> simp
@[simp] theorem Part.takeRow_belt : (p.takeRow).belt = p.belt := by unfold Part.takeRow; (try dsimp only); (repeat' split) <;> simp
@[simp] theorem Part.takeRow_free : (p.takeRow).free = p.free := by unfold Part.takeRow; (try dsimp only); (repeat' split) <;> simp

@[simp] theorem Part.truncated_intake : (p.truncated).intake = p.intake := by unfold Part.truncated; (try dsimp only); (repeat' split) <;> simp
@[simp] theorem Part.truncated_head : (p.truncated).head = p.head := by unfold Part.truncated; (try dsimp only); (repeat' split) <;> simp
@[simp] theorem Part.truncated_belt : (p.truncated).belt = p.belt := by unfold Part.truncated; (try dsimp only); (repeat' split) <;> simp
@[simp] theorem Part.truncated_lots : (p.truncated).lots = p.lots := by unfold Part.truncated; (try dsimp only); (repeat' split) <;> simp
@[simp] theorem Part.truncated_setup : (p.truncated).setup = p.setup := by unfold Part.truncated; (try dsimp only); (repeat' split) <;> simp
@[simp] theorem Part.truncated_recorder : (p.truncated).recorder = p.recorder := by unfold Part.truncated; (try dsimp only); (repeat' split) <;> simp
@[simp] theorem Part.truncated_dirty : (p.truncated).dirty = p.dirty := by unfold Part.truncated; (try dsimp only); (repeat' split) <;> simp
@[simp] theorem Part.truncated_free : (p.truncated).free = p.free := by unfold Part.truncated; (try dsimp only); (repeat' split) <;> simp

@[simp] theorem Part.checkedStage_intake (r : CondRow) : (p.checkedStage r).intake = p.intake := by unfold Part.checkedStage; (try dsimp only); (repeat' split) <;> simp
@[simp] theorem Part.checkedStage_sched (r : CondRow) : (p.checkedStage r).sched = p.sched := by unfold Part.checkedStage; (try dsimp only); (repeat' split) <;> simp
@[simp] theorem Part.checkedStage_head (r : CondRow) : (p.checkedStage r).head = p.head := by unfold Part.checkedStage; (try dsimp only); (repeat' split) <;> simp
@[simp] theorem Part.checkedStage_belt (r : CondRow) : (p.checkedStage r).belt = p.belt := by unfold Part.checkedStage; (try dsimp only); (repeat' split) <;> simp
@[simp] theorem Part.checkedStage_lots (r : CondRow) : (p.checkedStage r).lots = p.lots := by unfold Part.checkedStage; (try dsimp only); (repeat' split) <;> simp
@[simp] theorem Part.checkedStage_setup (r : CondRow) : (p.checkedStage r).setup = p.setup := by unfold Part.checkedStage; (try dsimp only); (repeat' split) <;> simp
@[simp] theorem Part.checkedStage_recorder (r : CondRow) : (p.checkedStage r).recorder = p.recorder := by unfold Part.checkedStage; (try dsimp only); (repeat' split) <;> simp
@[simp] theorem Part.checkedStage_dirty (r : CondRow) : (p.checkedStage r).dirty = p.dirty := by unfold Part.checkedStage; (try dsimp only); (repeat' split) <;> simp
@[simp] theorem Part.checkedStage_free (r : CondRow) : (p.checkedStage r).free = p.free := by unfold Part.checkedStage; (try dsimp only); (repeat' split) <;> simp

@[simp] theorem Part.accumulatedStage_intake (r : CondRow) : (p.accumulatedStage r).intake = p.intake := by unfold Part.accumulatedStage; (try dsimp only); (repeat' split) <;> simp
@[simp] theorem Part.accumulatedStage_holes (r : CondRow) : (p.accumulatedStage r).holes = p.holes := by unfold Part.accumulatedStage; (try dsimp only); (repeat' split) <;> simp
@[simp] theorem Part.accumulatedStage_sched (r : CondRow) : (p.accumulatedStage r).sched = p.sched := by unfold Part.accumulatedStage; (try dsimp only); (repeat' split) <;> simp
@[simp] theorem Part.accumulatedStage_head (r : CondRow) : (p.accumulatedStage r).head = p.head := by unfold Part.accumulatedStage; (try dsimp only); (repeat' split) <;> simp
@[simp] theorem Part.accumulatedStage_belt (r : CondRow) : (p.accumulatedStage r).belt = p.belt := by unfold Part.accumulatedStage; (try dsimp only); (repeat' split) <;> simp
@[simp] theorem Part.accumulatedStage_lots (r : CondRow) : (p.accumulatedStage r).lots = p.lots := by unfold Part.accumulatedStage; (try dsimp only); (repeat' split) <;> simp
@[simp] theorem Part.accumulatedStage_setup (r : CondRow) : (p.accumulatedStage r).setup = p.setup := by unfold Part.accumulatedStage; (try dsimp only); (repeat' split) <;> simp
@[simp] theorem Part.accumulatedStage_recorder (r : CondRow) : (p.accumulatedStage r).recorder = p.recorder := by unfold Part.accumulatedStage; (try dsimp only); (repeat' split) <;> simp
@[simp] theorem Part.accumulatedStage_dirty (r : CondRow) : (p.accumulatedStage r).dirty = p.dirty := by unfold Part.accumulatedStage; (try dsimp only); (repeat' split) <;> simp
@[simp] theorem Part.accumulatedStage_free (r : CondRow) : (p.accumulatedStage r).free = p.free := by unfold Part.accumulatedStage; (try dsimp only); (repeat' split) <;> simp

@[simp] theorem Part.passUnit_belt : (p.passUnit).belt = p.belt := by unfold Part.passUnit; (repeat' split) <;> simp

@[simp] theorem Part.passUnits_belt (n : Nat) : (p.passUnits n).belt = p.belt := by
  induction n generalizing p with
  | zero => rfl
  | succ n ih => unfold Part.passUnits; simp [ih]

end Sys2Proof.Machine
end

