-- ==== Sys2Proof/Laws/OkReports.lean ====
section
/-! SUPPORT. The bounds and agreements of Part.ok through records, lots, marks and the setup page. -/

namespace Sys2Proof.Machine

variable {p : Part}

/-- Taking a record out leaves one fewer. -/
theorem takeNewestNonLot_length {q rest : List Record} {r : Record} (h : takeNewestNonLot q = some (r, rest)) :
    rest.length + 1 = q.length := by
  unfold takeNewestNonLot at h
  have e := List.span_eq_takeWhile_dropWhile (p := Record.isLot) (l := q.reverse)
  have l := congrArg List.length (List.takeWhile_append_dropWhile (p := Record.isLot) (l := q.reverse))
  rw [e] at h
  split at h
  · cases h
  · next lots r' rest' hx =>
    simp only [Prod.mk.injEq] at hx
    simp only [Option.some.injEq, Prod.mk.injEq] at h
    obtain ⟨rfl, rfl⟩ := h
    rw [hx.1, hx.2] at l
    simp only [List.length_append, List.length_cons, List.length_reverse] at l ⊢
    omega

theorem Part.mark_ok (w : Nat) (h : p.ok) : (p.mark w).ok := h

theorem Part.setHide_ok (o : Owner) (x : Option Hide) (h : p.ok) : (p.setHide o x).ok := by
  cases o with
  | spill => exact h
  | entry i =>
    obtain ⟨h1, h2, h3⟩ := h
    exact ⟨h1, ⟨by simpa [Part.setHide] using h2.1, h2.2⟩, h3⟩

theorem Part.modifyHide_ok (o : Owner) (f : Hide → Hide) (h : p.ok) : (p.modifyHide o f).ok := Part.setHide_ok o _ h

/-- Lots that keep their ids keep the agreement. -/
theorem Part.modifyLot_ok (id : Half) (f : Lot → Lot) (hf : ∀ l, (f l).id = l.id) (h : p.ok) : (p.modifyLot id f).ok := by
  obtain ⟨h1, h2, h3, h4, h5, h6, h7⟩ := h
  unfold Part.modifyLot
  split
  · refine ⟨h1, h2, h3, h4, h5, ⟨fun c hc => ?_, h6.2⟩, h7⟩
    simpa [hf] using h6.1 c hc
  · refine ⟨h1, h2, h3, h4, h5, ⟨fun c hc => ?_, h6.2⟩, h7⟩
    obtain ⟨l, hl, rfl⟩ := Option.map_eq_some_iff.1 hc
    have := h6.1 l hl
    dsimp only
    split <;> simp [hf, this]

theorem Part.flagDropped_ok (id : Half) (h : p.ok) : (p.flagDropped id).ok :=
  Part.modifyLot_ok id (fun l => { l with recordsDropped := true }) (fun _ => rfl) h

theorem Part.dropRecord_ok (r : Record) (h : p.ok) : (p.dropRecord r).ok := by
  have h' : ({ p with recorder.dropped := p.recorder.dropped + 1 } : Part).ok := h
  unfold Part.dropRecord
  cases r <;> dsimp only
  · exact Part.flagDropped_ok _ (Part.mark_ok _ h')
  · exact Part.mark_ok _ h'
  · exact Part.flagDropped_ok _ (Part.mark_ok _ h')
  · exact Part.flagDropped_ok _ (Part.mark_ok _ h')

theorem Part.emit_ok (r : Record) (h : p.ok) : (p.emit r).ok := by
  unfold Part.emit
  split
  · next hl =>
    obtain ⟨h1, h2, h3, h4, h5, h6, h7⟩ := h
    exact ⟨h1, h2, h3, h4, h5, h6, ⟨by simpa using hl, h7.2⟩⟩
  · split
    · split
      · next old rest ht =>
        apply Part.dropRecord_ok
        obtain ⟨h1, h2, h3, h4, h5, h6, h7⟩ := h
        refine ⟨h1, h2, h3, h4, h5, h6, ⟨?_, h7.2⟩⟩
        have := takeNewestNonLot_length ht
        have := h7.1
        simp only [List.length_append, List.length_cons, List.length_nil]
        omega
      · exact Part.dropRecord_ok _ h
    · exact Part.dropRecord_ok _ h

theorem Part.raise_ok (k : EventKind) (a : Word) (h : p.ok) : (p.raise k a).ok := Part.emit_ok _ h

theorem Part.release_ok (i : HideInfo) (o : StampOutcome) (x : Option Word) (h : p.ok) : (p.release i o x).ok :=
  Part.emit_ok _ (Part.modifyLot_ok _ _ (fun _ => rfl) h)

theorem Part.lotTransition_ok (id : Half) (b : Bool) (hid : id ≠ p.lots.openLot.id) (h : p.ok) :
    (p.lotTransition id b).ok := by
  obtain ⟨h1, h2, h3, h4, h5, h6, h7⟩ := h
  refine ⟨h1, h2, h3, h4, h5, ⟨fun c hc => ?_, h6.2⟩, h7⟩
  simp only [Part.lotTransition, Part.mark, Option.some.injEq] at hc
  subst hc
  exact fun e => hid e.symm

theorem Part.packTransition_ok (h : p.ok) : (p.packTransition).ok := by
  refine Part.lotTransition_ok _ _ ?_ h
  generalize p.lots.openLot.id = x
  intro e
  have := congrArg BitVec.toNat e
  rw [BitVec.toNat_add, show (1 : Half).toNat = 1 from rfl] at this
  have := x.isLt
  omega

theorem Part.birthLot_ok (h : p.ok) : p.birthLot.2.ok := by
  have hf : ({ p with lots.openLot := p.lots.openLot.addBirth, lots.packCounter := p.lots.packCounter + 1 } : Part).ok := h
  unfold Part.birthLot
  split
  · next l hl =>
    split
    · obtain ⟨h1, h2, h3, h4, h5, h6, h7⟩ := h
      refine ⟨h1, h2, h3, h4, h5, ⟨fun c hc => ?_, h6.2⟩, h7⟩
      simp only [Option.some.injEq] at hc
      subst hc
      exact h6.1 l hl
    · dsimp only
      split
      · exact hf
      · exact hf
  · dsimp only
    split
    · exact Part.packTransition_ok hf
    · exact hf

theorem Part.closeLotIfEmpty_ok (h : p.ok) : p.closeLotIfEmpty.ok := by
  unfold Part.closeLotIfEmpty
  split
  · exact h
  · split
    · exact h
    · refine Part.emit_ok _ (Part.mark_ok _ ?_)
      obtain ⟨h1, h2, h3, h4, h5, h6, h7⟩ := h
      exact ⟨h1, h2, h3, h4, h5, ⟨fun c hc => (by cases hc), h6.2⟩, h7⟩

theorem Part.takePackPending_ok (h : p.ok) : p.takePackPending.ok := by
  have h' : ({ p with lots.packPending := false } : Part).ok := h
  unfold Part.takePackPending
  dsimp only
  split
  · split
    · exact Part.packTransition_ok h'
    · exact h'
  · exact h

theorem Part.closingTest_ok (h : p.ok) : p.closingTest.ok := by
  unfold Part.closingTest
  dsimp only
  split
  · exact h
  · split
    · exact Part.closeLotIfEmpty_ok (Part.takePackPending_ok (Part.closeLotIfEmpty_ok h))
    · exact Part.closeLotIfEmpty_ok h

theorem Part.closingTestFor_ok (id : Half) (h : p.ok) : (p.closingTestFor id).ok := by
  unfold Part.closingTestFor
  split
  · split
    · exact Part.closingTest_ok h
    · exact h
  · exact h

theorem Part.markRecord_ok (w : Nat) (d r : Word) (b : Option Half) (a : Bool) (l : Half) (h : p.ok) :
    (p.markRecord w d r b a l).ok :=
  Part.emit_ok _ (Part.modifyLot_ok _ _ (fun _ => rfl) h)

theorem Part.resolveMark_ok (m : Mark) (h : p.ok) : (p.resolveMark m).ok := by
  unfold Part.resolveMark
  dsimp only
  split <;> exact Part.markRecord_ok _ _ _ _ _ _ h

theorem Part.dropMark_ok (h : p.ok) : p.dropMark.ok := by
  have h' : ({ p with lots.marksDropped := p.lots.marksDropped + 1 } : Part).ok := h
  unfold Part.dropMark
  dsimp only
  split
  · exact Part.mark_ok _ h'
  · exact Part.mark_ok _ h'

/-- A waiting mark that finds room is added. -/
theorem Part.waitMark_ok (m : Mark) (hq : p.lots.markQueue.length < 16) (h : p.ok) :
    ({ p with lots.markQueue := p.lots.markQueue ++ [m] } : Part).ok := by
  obtain ⟨h1, h2, h3, h4, h5, h6, h7⟩ := h
  exact ⟨h1, h2, h3, h4, h5, ⟨h6.1, by simpa using hq, h6.2.2⟩, h7⟩

theorem Part.placeMark_ok (m : Mark) (h : p.ok) : (p.placeMark m).ok := by
  unfold Part.placeMark
  split
  · split
    · next hq => exact Part.waitMark_ok m hq h
    · exact Part.dropMark_ok h
  · exact Part.resolveMark_ok m h

theorem Part.raiseMark_ok (w : Nat) (d : Word) (h : p.ok) : (p.raiseMark w d).ok := by
  unfold Part.raiseMark
  dsimp only
  split
  · exact Part.markRecord_ok _ _ _ _ _ _ h
  · exact Part.placeMark_ok _ h

/-- Records and tallies leave the waiting marks alone. -/
@[simp] theorem Part.flagDropped_markQueue (id : Half) : (p.flagDropped id).lots.markQueue = p.lots.markQueue := by
  unfold Part.flagDropped; split <;> rfl

@[simp] theorem Part.dropRecord_markQueue (r : Record) : (p.dropRecord r).lots.markQueue = p.lots.markQueue := by
  unfold Part.dropRecord; cases r <;> simp

@[simp] theorem Part.emit_markQueue (r : Record) : (p.emit r).lots.markQueue = p.lots.markQueue := by
  unfold Part.emit; (repeat' split) <;> simp

@[simp] theorem Part.modifyLot_markQueue (id : Half) (f : Lot → Lot) :
    (p.modifyLot id f).lots.markQueue = p.lots.markQueue := by
  unfold Part.modifyLot; split <;> rfl

@[simp] theorem Part.resolveMark_markQueue (m : Mark) : (p.resolveMark m).lots.markQueue = p.lots.markQueue := by
  unfold Part.resolveMark Part.markRecord; dsimp only; split <;> simp

theorem Part.reexamine_ok (ms : List Mark) (hl : p.lots.markQueue.length + ms.length ≤ 16) (h : p.ok) :
    (p.reexamine ms).ok := by
  induction ms generalizing p with
  | nil => exact h
  | cons m ms ih =>
    simp only [List.length_cons] at hl
    unfold Part.reexamine
    split
    · exact ih (by simp only [List.length_append, List.length_cons, List.length_nil]; omega)
        (Part.waitMark_ok m (by omega) h)
    · exact ih (by rw [Part.resolveMark_markQueue]; omega) (Part.resolveMark_ok m h)

theorem Part.reexamineMarks_ok (h : p.ok) : p.reexamineMarks.ok := by
  obtain ⟨h1, h2, h3, h4, h5, h6, h7⟩ := h
  exact Part.reexamine_ok _ (by simpa using h6.2.1) ⟨h1, h2, h3, h4, h5, ⟨h6.1, by simp, h6.2.2⟩, h7⟩

theorem Part.addRecent_ok (r : RecentHide) (h : p.ok) : (p.addRecent r).ok := by
  obtain ⟨h1, h2, h3, h4, h5, h6, h7⟩ := h
  refine ⟨h1, h2, h3, h4, h5, ⟨h6.1, h6.2.1, ?_⟩, h7⟩
  have := h6.2.2
  simp only [Part.addRecent]
  split
  · simp only [List.length_append, List.length_tail, List.length_cons, List.length_nil]; omega
  · simp only [List.length_append, List.length_cons, List.length_nil]; omega

theorem Part.setSticky_ok (b : BitVec 4) (h : p.ok) : (p.setSticky b).ok := by
  unfold Part.setSticky
  split
  · exact h
  · exact Part.mark_ok _ h

theorem Part.clearSticky_ok (h : p.ok) : p.clearSticky.ok := by
  unfold Part.clearSticky
  split
  · exact h
  · exact Part.mark_ok _ h

/-- A fold whose every step keeps the agreement keeps it. -/
theorem foldl_ok {β : Type} {g : Part → β → Part} (hg : ∀ p b, p.ok → (g p b).ok) (l : List β) (h : p.ok) :
    (l.foldl g p).ok := by
  induction l generalizing p with
  | nil => exact h
  | cons b l ih => exact ih (hg _ b h)

theorem Part.markBeat_ok (w : Bool) (a : BitVec 22) (en : Lanes) (d : Word) (h : p.ok) : (p.markBeat w a en d).ok := by
  unfold Part.markBeat
  dsimp only
  split
  · exact h
  · exact foldl_ok (fun p x hp => Part.raiseMark_ok _ _ hp) _ (Part.setSticky_ok _ h)

theorem Part.setResult_ok (r : CmdResult) (h : p.ok) : (p.setResult r).ok := by
  unfold Part.setResult; split <;> exact h

theorem Part.answer_ok (t : Half) (c : BitVec 4) (r : ResultCode) (h : p.ok) : (p.answer t c r).ok := Part.setResult_ok _ h

theorem Part.setSnapshot_ok (x : Option Snapshot) (h : p.ok) : (p.setSnapshot x).ok := by
  unfold Part.setSnapshot; dsimp only; split <;> exact h

theorem Part.flagCalChanged_ok (h : p.ok) : p.flagCalChanged.ok := by
  obtain ⟨h1, h2, h3, h4, h5, h6, h7⟩ := h
  refine ⟨h1, h2, h3, h4, h5, ⟨fun c hc => ?_, h6.2⟩, h7⟩
  obtain ⟨l, hl, rfl⟩ := Option.map_eq_some_iff.1 hc
  exact h6.1 l hl

theorem Part.reconfigureRowRing_ok (h : p.ok) : p.reconfigureRowRing.ok := 
  ⟨⟨Nat.zero_le _, Nat.zero_le _⟩, h.2⟩

theorem Part.clearAutoMask_ok (h : p.ok) : p.clearAutoMask.ok := h

theorem Part.applyGuarded_ok (g : Guarded) (h : p.ok) : (p.applyGuarded g).ok := by
  have h' : ({ p with setup.guarded := g } : Part).ok := h
  have h'' := Part.flagCalChanged_ok h'
  unfold Part.applyGuarded
  dsimp only
  split
  · apply Part.clearAutoMask_ok
    split
    · exact Part.reconfigureRowRing_ok h''
    · exact h''
  · split
    · exact Part.reconfigureRowRing_ok h''
    · exact h''

theorem Part.applySnapshotIfQuiet_ok (h : p.ok) : p.applySnapshotIfQuiet.ok := by
  unfold Part.applySnapshotIfQuiet
  split
  · exact h
  · split
    · exact Part.setSnapshot_ok _ (Part.raise_ok _ _ (Part.applyGuarded_ok _ h))
    · exact h

theorem Part.writeStaged_ok (i : Nat) (en : Lanes) (d : Word) (h : p.ok) : (p.writeStaged i en d).ok := h

theorem Part.writeArgument_ok (which : ArgWord) (en : Lanes) (d : Word) (h : p.ok) : (p.writeArgument which en d).ok := by
  cases which <;> exact h

theorem Part.takeNotice_ok (h : p.ok) : p.takeNotice.ok := by
  obtain ⟨h1, h2, h3⟩ := h
  exact ⟨h1, ⟨by simpa [Part.takeNotice] using h2.1, h2.2⟩, h3⟩

theorem Part.takeWaitingNotice_ok (h : p.ok) : p.takeWaitingNotice.ok := by
  unfold Part.takeWaitingNotice; split
  · exact Part.takeNotice_ok h
  · exact h

theorem Part.giveNotice_ok (h : p.ok) : p.giveNotice.ok := by
  unfold Part.giveNotice; split
  · exact h
  · exact Part.takeNotice_ok h

end Sys2Proof.Machine
end

