-- ==== Sys2Proof/Laws/OkStamp.lean ====
section
/-! SUPPORT. The bounds and agreements of Part.ok through the job queue, the head link and the belt activity controller. -/

namespace Sys2Proof.Machine

variable {p : Part}

/-- Inserting one element makes the list one longer. -/
theorem insertBy_length {α : Type} (le : α → α → Bool) (x : α) (l : List α) : (insertBy le x l).length = l.length + 1 := by
  induction l with
  | nil => rfl
  | cons y ys ih => unfold insertBy; split <;> simp [ih]

/-- Only the job queue of an agreeing part changes. -/
theorem Part.withSched_ok (s : Scheduler) (hs : s.ok) (h : p.ok) : ({ p with sched := s } : Part).ok :=
  ⟨h.1, h.2.1, hs, h.2.2.2⟩

/-- Only the head link of an agreeing part changes. -/
theorem Part.withHead_ok (x : HeadLink) (hx : x.ok) (h : p.ok) : ({ p with head := x } : Part).ok :=
  ⟨h.1, h.2.1, h.2.2.1, hx, h.2.2.2.2⟩

/-- Only the belt of an agreeing part changes. -/
theorem Part.withBelt_ok (b : Belt) (hb : b.ok) (h : p.ok) : ({ p with belt := b } : Part).ok :=
  ⟨h.1, h.2.1, h.2.2.1, h.2.2.2.1, hb, h.2.2.2.2.2⟩

/-- Six commands for six slots. -/
theorem entryCommands_length (st : HeadState) (j : Option InHand) : (entryCommands st j).length = 6 := by
  cases st <;> cases j <;> rfl

/-- Setting held commands keeps the slots and their parity runs. -/
theorem HeadLink.hold_ok {x : HeadLink} (cmds : List (Option SlotCmd)) (hc : cmds.length = 6) (hx : x.ok) :
    ({ x with slots := holdAll x.slots cmds } : HeadLink).ok := by
  refine ⟨by simp [holdAll, hx.1, hc], hx.2.1, fun s hs => ?_⟩
  obtain ⟨i, hi, rfl⟩ := List.mem_iff_getElem.1 hs
  have hl : i < (holdAll x.slots cmds).length := hi
  simp only [holdAll, List.length_zipWith] at hl
  simp only [holdAll, List.getElem_zipWith]
  have h2 := hx.2.2 (x.slots[i]'(by omega)) (List.getElem_mem _)
  cases cmds[i]'(by omega) with
  | none => exact h2
  | some c => exact h2

/-- Entering a head state. -/
theorem Part.enterHead_ok (st : HeadState) (h : p.ok) : (p.enterHead st).ok := by
  have hh := HeadLink.hold_ok (entryCommands st p.head.inHand) (entryCommands_length _ _) h.2.2.2.1
  have h' : ({ p with
      head.state := st
      head.slots := holdAll p.head.slots (entryCommands st p.head.inHand) } : Part).ok :=
    Part.withHead_ok _ hh h
  unfold Part.enterHead
  dsimp only
  split
  · exact h'
  · exact Part.mark_ok _ h'

theorem Part.dropInHand_ok (h : p.ok) : p.dropInHand.ok := h

theorem Part.placeJob_ok (j : Job) (hl : p.jobs.length < 8) (h : p.ok) : (p.placeJob j).ok := by
  refine Part.withSched_ok _ ?_ h
  unfold Scheduler.ok
  simp only [insertBy_length]
  simp only [Part.jobs, List.length_append] at hl
  omega

theorem Part.setJobState_ok (st : JobState) (h : p.ok) : (p.setJobState st).ok := by
  refine Part.withSched_ok _ ?_ h
  have := h.2.2.1
  unfold Scheduler.ok at this ⊢
  cases hc : p.sched.current <;> simp_all

theorem Part.nameJob_ok (h : p.ok) : p.nameJob.ok := by
  unfold Part.nameJob
  split
  · next hc hw =>
    split
    · refine Part.withSched_ok _ ?_ h
      have := h.2.2.1
      unfold Scheduler.ok at this ⊢
      rw [hc, hw] at this
      simp at this ⊢
      omega
    · exact h
  · exact h

theorem Part.startJob_ok (h : p.ok) : p.startJob.ok := by
  unfold Part.startJob
  split
  · split
    · exact Part.setJobState_ok _ (Part.enterHead_ok _ h)
    · exact h
  · exact h

theorem Part.nameAndStart_ok (h : p.ok) : p.nameAndStart.ok := Part.startJob_ok (Part.nameJob_ok h)

theorem Part.finishJob_ok (j : Job) (o : StampOutcome) (h : p.ok) : (p.finishJob j o).ok :=
  Part.closingTestFor_ok _ (Part.applySnapshotIfQuiet_ok (Part.release_ok _ _ _ h))

theorem Part.finishCurrent_ok (o : StampOutcome) (h : p.ok) : (p.finishCurrent o).ok := by
  unfold Part.finishCurrent
  split
  · refine Part.finishJob_ok _ _ (Part.withSched_ok _ ?_ h)
    have := h.2.2.1
    unfold Scheduler.ok at this ⊢
    simp only [Option.toList_none, List.length_nil]
    omega
  · exact h

theorem Part.missWaiting_ok (r : MissReason) (js : List Job) (hl : p.sched.current.toList.length + js.length ≤ 8)
    (h : p.ok) : (p.missWaiting r js).ok := by
  induction js generalizing p with
  | nil => exact h
  | cons j js ih =>
    simp only [List.length_cons] at hl
    unfold Part.missWaiting
    refine ih (by simp only [Part.finishJob_sched]; omega) (Part.finishJob_ok _ _ (Part.withSched_ok _ ?_ h))
    unfold Scheduler.ok
    dsimp only
    omega

theorem Part.missAll_ok (r : MissReason) (h : p.ok) : (p.missAll r).ok := by
  unfold Part.missAll
  have h' := Part.finishCurrent_ok (.missed r) h
  exact Part.missWaiting_ok _ _ h'.2.2.1 h'

theorem Part.missPassed_ok (kept js : List Job) (hl : p.sched.current.toList.length + kept.length + js.length ≤ 8)
    (h : p.ok) : (p.missPassed kept js).ok := by
  induction js generalizing p kept with
  | nil => exact h
  | cons j js ih =>
    simp only [List.length_cons] at hl
    unfold Part.missPassed
    split
    · refine ih _ (by simp only [Part.finishJob_sched]; omega) (Part.finishJob_ok _ _ (Part.withSched_ok _ ?_ h))
      unfold Scheduler.ok
      simp only [List.length_append, List.length_reverse]
      omega
    · exact ih _ (by simp only [List.length_cons]; omega) h

theorem Part.enterParking_ok (h : p.ok) : p.enterParking.ok := by
  have h' := Part.enterHead_ok .parking (Part.dropInHand_ok h)
  unfold Part.enterParking
  dsimp only
  split
  · next j hj =>
    split
    · exact h'
    · have hs := h'.2.2.1
      unfold Scheduler.ok at hs
      rw [hj] at hs
      simp only [Option.toList_some, List.length_cons, List.length_nil] at hs
      refine Part.placeJob_ok _ ?_ (Part.withSched_ok _ ?_ h')
      · simp only [Part.jobs, Option.toList_none, List.nil_append]
        omega
      · unfold Scheduler.ok
        simp only [Option.toList_none, List.length_nil]
        omega
  · exact h'

theorem Part.enterReady_ok (h : p.ok) : p.enterReady.ok := by
  unfold Part.enterReady
  split
  · exact Part.enterParking_ok h
  · exact Part.enterHead_ok _ h

theorem Part.clearRuns_ok (h : p.ok) : p.clearRuns.ok := by
  refine Part.withHead_ok _ ⟨by simpa using h.2.2.2.1.1, h.2.2.2.1.2.1, fun s hs => ?_⟩ h
  obtain ⟨t, -, rfl⟩ := List.mem_map.1 hs
  exact Nat.zero_le 2

theorem Part.currentAtHoming_ok (c : HomingCause) (h : p.ok) : (p.currentAtHoming c).ok := by
  cases c with
  | wake => exact h
  | headReset =>
    unfold Part.currentAtHoming
    dsimp only
    split
    · split
      · exact Part.finishCurrent_ok _ h
      · exact Part.setJobState_ok _ h
    · exact h

theorem Part.enterHoming_ok (c : HomingCause) (h : p.ok) : (p.enterHoming c).ok :=
  Part.nameAndStart_ok (Part.currentAtHoming_ok c (Part.enterHead_ok _ (Part.clearRuns_ok (Part.dropInHand_ok h))))

theorem Part.enterFaulted_ok (i : Nat) (c : FaultCode) (h : p.ok) : (p.enterFaulted i c).ok := by
  unfold Part.enterFaulted
  have h1 := Part.raise_ok .headFault (headFaultArg i c) h
  refine Part.missAll_ok _ (Part.enterHead_ok _ (Part.dropInHand_ok (Part.mark_ok _ ?_)))
  exact Part.withHead_ok _ h1.2.2.2.1 h1

theorem Part.withdraw_ok (h : p.ok) : p.withdraw.ok := by
  unfold Part.withdraw
  split
  · exact Part.enterReady_ok (Part.dropInHand_ok h)
  · exact h

theorem Part.requestStrike_ok (j : Job) (h : p.ok) : (p.requestStrike j).ok := by
  have h' := Part.setJobState_ok .striking h
  unfold Part.requestStrike
  dsimp only
  split
  · exact Part.enterHead_ok _ (Part.withHead_ok { (p.setJobState .striking).head with window := 0 } h'.2.2.2.1 h')
  · exact h'

theorem Part.settleCurrent_ok (h : p.ok) : p.settleCurrent.ok := by
  unfold Part.settleCurrent
  split
  · exact h
  · split
    · split
      · exact Part.finishCurrent_ok _ h
      · exact Part.withdraw_ok (Part.finishCurrent_ok _ h)
      · exact Part.requestStrike_ok _ h
      · exact h
    · exact h

theorem Part.settleIncrement_ok (h : p.ok) : p.settleIncrement.ok := by
  have h' := Part.settleCurrent_ok h
  exact Part.nameAndStart_ok (Part.missPassed_ok _ _ (by simpa [Scheduler.ok] using h'.2.2.1) h')

theorem Part.clearHeights_ok (h : p.ok) : p.clearHeights.ok := h

theorem Part.restartCurrent_ok (h : p.ok) : p.restartCurrent.ok := by
  unfold Part.restartCurrent
  split
  · exact h
  · split
    · exact h
    · exact Part.withdraw_ok (Part.finishCurrent_ok _ h)
    · exact Part.withdraw_ok (Part.finishCurrent_ok _ h)
    · exact Part.finishCurrent_ok _ h

theorem Part.schedulerRestart_ok (h : p.ok) : p.schedulerRestart.ok := by
  have h' := Part.restartCurrent_ok h
  exact Part.clearHeights_ok (Part.missWaiting_ok _ _ h'.2.2.1 h')

theorem Part.makeJob_ok (i : HideInfo) (x : Site) (y : Symbols) (hl : p.jobs.length < 8) (h : p.ok) :
    (p.makeJob i x y).ok :=
  Part.nameAndStart_ok (Part.placeJob_ok _ hl h)

theorem Part.parkOrder_ok (h : p.ok) : p.parkOrder.ok := by
  unfold Part.parkOrder
  split <;> first | exact h | exact Part.enterParking_ok h

theorem Part.wakeOrder_ok (h : p.ok) : p.wakeOrder.ok := by
  unfold Part.wakeOrder
  split <;> first | exact h | exact Part.enterHoming_ok _ h

/-- A transition of the belt. -/
theorem Part.movedBelt_ok (b : Belt) (hb : b.ok) (h : p.ok) : ({ p with belt := b }.mark wBelt : Part).ok :=
  Part.mark_ok _ (Part.withBelt_ok b hb h)

theorem Part.restartSignal_ok (h : p.ok) : p.restartSignal.ok := by
  unfold Part.restartSignal
  have hb := h.2.2.2.2.1
  split
  · next e =>
    refine Part.withBelt_ok _ ⟨by simp [e], ?_, hb.2.2⟩ h
    simpa [e] using hb.2.1
  · next e =>
    exact Part.movedBelt_ok (p := p) { present := .running, last := some p.belt.present, halt := some 0, park := none }
      ⟨by simp, by simp, by simp [e]⟩ h
  · next e =>
    refine Part.wakeOrder_ok (Part.movedBelt_ok (p := p)
      { present := .running, last := some p.belt.present, halt := some 0, park := p.belt.park } ⟨by simp, ?_, by simp [e]⟩ h)
    have := hb.2.1
    rw [e] at this
    simpa using this

theorem Part.haltExpiry_ok (h : p.ok) : p.haltExpiry.ok := by
  unfold Part.haltExpiry
  split
  · next e =>
    exact Part.movedBelt_ok (p := p) { present := .halted, last := some p.belt.present, halt := none, park := some 0 }
      ⟨by simp, by simp, by simp [e]⟩ h
  all_goals exact h

theorem Part.takeHaltExpiry_ok (h : p.ok) : p.takeHaltExpiry.ok := by
  unfold Part.takeHaltExpiry
  split
  · exact Part.haltExpiry_ok h
  · exact h

/-- A halt timer that a restart signal has just started does not expire (R156). -/
theorem Part.takeHaltExpiry_started (h : p.belt.halt = some 0) : p.takeHaltExpiry = p := by simp [Part.takeHaltExpiry, h]

theorem Part.parkExpiry_ok (h : p.ok) : p.parkExpiry.ok := by
  unfold Part.parkExpiry
  split
  · next e =>
    refine Part.parkOrder_ok (Part.movedBelt_ok (p := p)
      { present := .parked, last := some p.belt.present, halt := p.belt.halt, park := none } ⟨?_, by simp, by simp [e]⟩ h)
    have := h.2.2.2.2.1.1
    rw [e] at this
    simpa using this
  all_goals exact h

theorem Part.timersAfterCommit_ok (a b : Nat) (h : p.ok) : (p.timersAfterCommit a b).ok := by
  unfold Part.timersAfterCommit
  have h' := Part.haltExpiry_ok h
  generalize p.haltExpiry = q at *
  by_cases c : p.haltLength ≠ a ∧ timerDue p.belt.halt p.haltLength = true
  · simp only [if_pos c]
    split
    · exact Part.parkExpiry_ok h'
    · exact h'
  · simp only [if_neg c]
    split
    · exact Part.parkExpiry_ok h
    · exact h

theorem Part.tick_ok (h : p.ok) : p.tick.ok := by
  have h' : ({ p with belt.halt := p.belt.halt.map (· + 1), belt.park := p.belt.park.map (· + 1) } : Part).ok := by
    refine Part.withBelt_ok _ ⟨?_, ?_, h.2.2.2.2.1.2.2⟩ h
    · simpa using h.2.2.2.2.1.1
    · simpa using h.2.2.2.2.1.2.1
  unfold Part.tick
  dsimp only
  split
  · exact Part.haltExpiry_ok h'
  · split
    · exact Part.parkExpiry_ok h'
    · exact h'

/-! ### Frames -/

theorem Part.boundary_ok (h : p.ok) : p.boundary.ok := by
  have hh := h.2.2.2.1
  unfold Part.boundary
  dsimp only
  split
  · exact h
  · refine Part.withHead_ok _ ⟨by simpa using hh.1, fun f hf => ?_, fun s hs => ?_⟩ h
    · simp only [Option.some.injEq] at hf
      subst hf
      simpa [frameOf] using hh.1
    · obtain ⟨t, ht, rfl⟩ := List.mem_map.1 hs
      exact hh.2.2 t ht

theorem Part.finishStriking_ok (o : StampOutcome) (h : p.ok) : (p.finishStriking o).ok := by
  unfold Part.finishStriking
  split
  · split
    · exact Part.finishCurrent_ok _ h
    · exact h
  · exact h

theorem Part.confirmStrike_ok (c : BitVec 12) (h : p.ok) : (p.confirmStrike c).ok := by
  unfold Part.confirmStrike
  exact Part.nameAndStart_ok (Part.enterReady_ok (Part.dropInHand_ok (Part.finishStriking_ok .stamped
    (Part.withHead_ok { p.head with hammerCount := some c } h.2.2.2.1 h))))

theorem Part.headActs_ok (c : Option (BitVec 12)) (h : p.ok) : (p.headActs c).ok := by
  unfold Part.headActs
  split
  · split
    · exact Part.nameAndStart_ok (Part.enterReady_ok h)
    · exact h
  · split
    · exact Part.setJobState_ok _ (Part.enterHead_ok _ h)
    · exact h
  · split
    · exact Part.confirmStrike_ok _ h
    · exact h
  · split
    · exact Part.enterHead_ok _ h
    · exact h
  all_goals exact h

theorem Part.windowRunsOut_ok (h : p.ok) : p.windowRunsOut.ok := by
  unfold Part.windowRunsOut
  split
  · exact Part.enterFaulted_ok _ _ (Part.withHead_ok { p.head with window := 16 } h.2.2.2.1 h)
  · exact h

/-- Judging a slot keeps its parity run below 3. -/
theorem judgeSlot_run (i : Nat) (st : HeadState) (b : Option (BitVec 12)) (s : Slot) (c : SlotCmd) (w : BitVec 16)
    (h : s.run ≤ 2) : (judgeSlot i st b s c w).slot.run ≤ 2 := by
  unfold judgeSlot
  dsimp only
  (repeat' split) <;> dsimp only <;> omega

/-- Judging six slots gives six, with their parity runs below 3. -/
theorem judgeAll_ok (st : HeadState) (b : Option (BitVec 12)) (i : Nat) (ss : List Slot) (cs : List SlotCmd)
    (ws : List (BitVec 16)) (hc : cs.length = ss.length) (hw : ws.length = ss.length) (h : ∀ s ∈ ss, s.run ≤ 2) :
    (judgeAll st b i ss cs ws).length = ss.length ∧ ∀ j ∈ judgeAll st b i ss cs ws, j.slot.run ≤ 2 := by
  induction ss generalizing i cs ws with
  | nil => exact ⟨by cases cs <;> cases ws <;> rfl, by cases cs <;> cases ws <;> simp [judgeAll]⟩
  | cons s ss ih =>
    cases cs with
    | nil => simp at hc
    | cons c cs =>
      cases ws with
      | nil => simp at hw
      | cons w ws =>
        simp only [List.length_cons, Nat.add_right_cancel_iff] at hc hw
        have hi := ih (i + 1) cs ws hc hw (fun t ht => h t (List.mem_cons_of_mem _ ht))
        unfold judgeAll
        refine ⟨by simpa using hi.1, fun j hj => ?_⟩
        rcases List.mem_cons.1 hj with rfl | hj
        · exact judgeSlot_run _ _ _ _ _ _ (h s List.mem_cons_self)
        · exact hi.2 j hj

theorem Part.keepJudged_ok (js : List Judged) (hl : js.length = 6) (hr : ∀ j ∈ js, j.slot.run ≤ 2) (h : p.ok) :
    (p.keepJudged js).ok := by
  refine Part.withHead_ok _ ⟨by simpa using hl, fun f hf => ?_, fun s hs => ?_⟩ h
  · simp at hf
  · obtain ⟨j, hjm, rfl⟩ := List.mem_map.1 hs
    exact hr j hjm

theorem Part.countFrame_ok (after : Bool) (cs : List SlotCmd) (x : Option SlotStatus) (h : p.ok) :
    (p.countFrame after cs x).ok := by
  have g := h.2.2.2.1
  unfold Part.countFrame
  split
  · split
    · exact Part.withHead_ok { p.head with window := p.head.window + 1 } g h
    · split
      · exact Part.withHead_ok _ (HeadLink.hold_ok _ rfl g) h
      · exact h
  · split
    · split
      · next v _ => exact Part.withHead_ok { p.head with hammerCount := some v } g h
      · exact h
    · exact h

theorem Part.withNoStrike_ok (f : Option (Nat × FaultCode)) (h : p.ok) : (p.withNoStrike f).1.ok := by
  unfold Part.withNoStrike
  (repeat' split) <;> exact h

theorem Part.actOnFrame_ok (after : Bool) (c : Option (BitVec 12)) (f : Option (Nat × FaultCode)) (h : p.ok) :
    (p.actOnFrame after c f).ok := by
  have key : ∀ q : Part × Option (Nat × FaultCode), q.1.ok → (Part.actOn c q).ok := by
    rintro ⟨q, _ | ⟨i, d⟩⟩ hq
    · exact Part.headActs_ok c hq
    · exact Part.enterFaulted_ok i d hq
  unfold Part.actOnFrame
  split
  · split
    · exact key _ (Part.withNoStrike_ok f h)
    · exact key _ h
  · exact h

theorem Part.endFrame_ok (cs : List SlotCmd) (ws : List (BitVec 16)) (hc : cs.length = 6) (hw : ws.length = 6) (h : p.ok) :
    (p.endFrame cs ws).ok := by
  have hh := h.2.2.2.1
  have hj := judgeAll_ok p.head.state p.head.hammerCount 0 p.head.slots cs ws (hc.trans hh.1.symm) (hw.trans hh.1.symm) hh.2.2
  exact Part.actOnFrame_ok _ _ _ (Part.countFrame_ok _ _ _ (Part.keepJudged_ok _ (hj.1.trans hh.1) hj.2 h))

end Sys2Proof.Machine
end

