-- ==== Sys2Proof/Laws/OkPass.lean ====
section
/-! SUPPORT. The bounds and agreements of Part.ok through the stages of a row pass. -/

namespace Sys2Proof.Machine

variable {p : Part}

/-! ### Footage -/

theorem Part.leaveUnstamped_ok (i : HideInfo) (r : UnstampedReason) (h : p.ok) : (p.leaveUnstamped i r).ok :=
  Part.closingTestFor_ok _ (Part.release_ok _ _ _ h)

/-- A hide that no check refuses finds a place in the job queue (R79, R82). -/
theorem Part.unstampedReason_none (i : HideInfo) (hn : p.unstampedReason i = none) : p.jobs.length < 8 := by
  unfold Part.unstampedReason at hn
  (repeat' split at hn) <;> first | (cases hn; done) | omega

theorem Part.handOn_ok (i : HideInfo) (h : p.ok) : (p.handOn i).ok := by
  unfold Part.handOn
  split
  · exact Part.leaveUnstamped_ok _ _ h
  · next hn _ _ => exact Part.makeJob_ok _ _ _ (Part.unstampedReason_none i hn) h
  · exact Part.leaveUnstamped_ok _ _ h

theorem Part.takeHide_ok (x : Source) (c : CloseCause) (y : Hide) (h : p.ok) : (p.takeHide x c y).ok := by
  unfold Part.takeHide
  dsimp only
  split
  · exact Part.leaveUnstamped_ok _ _ h
  · exact Part.handOn_ok _ h

/-! ### Holes -/

theorem Part.breach_ok (x : Nat) (h : p.ok) : (p.breach x).ok := by
  unfold Part.breach
  split
  · exact Part.modifyHide_ok _ _ h
  · exact h

theorem Part.holeLimit_ok (e : Nat) (h : p.ok) : (p.holeLimit e).ok := by
  unfold Part.holeLimit
  split
  · split
    · exact h
    · exact Part.raise_ok _ _ (Part.setHide_ok _ _ h)
  · exact h

theorem Part.holeBirth_ok (g : Gap) (h : p.ok) : (p.holeBirth g).ok := by
  unfold Part.holeBirth
  split
  · split
    · exact h
    · exact Part.holeLimit_ok _ h
  · exact Part.holeLimit_ok _ h

theorem Part.absorbHole_ok (b a : Nat) (h : p.ok) : (p.absorbHole b a).ok := h

theorem Part.holeContinue_ok (g : Gap) (hs : List Nat) (h : p.ok) : (p.holeContinue g hs).ok := by
  cases hs with
  | nil => exact h
  | cons x xs =>
    unfold Part.holeContinue
    exact foldl_ok (fun _ a hq => Part.absorbHole_ok _ a hq) _ h

theorem Part.breachOver_ok (g : Gap) (h : p.ok) : (p.breachOver g).ok := foldl_ok (fun _ x hq => Part.breach_ok x hq) _ h

theorem Part.classifyGap_ok (g : Gap) (h : p.ok) : (p.classifyGap g).ok := by
  unfold Part.classifyGap
  split
  · exact Part.holeBirth_ok _ h
  · split
    · exact Part.holeContinue_ok _ _ h
    · exact Part.holeLimit_ok _ (Part.breachOver_ok _ h)
  · exact Part.breachOver_ok _ h

theorem Part.checkHole_ok (x : Nat) (h : p.ok) : (p.checkHole x).ok := by
  unfold Part.checkHole
  dsimp only
  (repeat' split) <;> first | exact h | exact Part.breach_ok _ h | exact Part.modifyHide_ok _ _ h

theorem Part.checkHoles_ok (h : p.ok) : p.checkHoles.ok := foldl_ok (fun _ x hq => Part.checkHole_ok x hq) _ h

theorem Part.breachOwned_ok (o : Owner) (h : p.ok) : (p.breachOwned o).ok := by
  cases o with
  | spill => exact h
  | entry e => exact foldl_ok (fun _ x hq => Part.breach_ok x hq) _ h

/-! ### Tracker -/

/-- The number after a number is never 0 (R28). -/
theorem nextNumber_ne (n : Half) : nextNumber n ≠ 0 := by
  unfold nextNumber
  split
  · decide
  · next h65 =>
    intro e
    have h1 := congrArg BitVec.toNat e
    rw [BitVec.toNat_add, show (1 : Half).toNat = 1 from rfl, show (0 : Half).toNat = 0 from rfl] at h1
    have h2 : n.toNat ≠ 65535 := fun c => h65 (BitVec.eq_of_toNat_eq c)
    have := n.isLt
    omega

/-- Skipping carried numbers never comes to 0 (R28). -/
theorem skipCarried_ne (l : List Half) (k : Nat) (n : Half) (hn : n ≠ 0) : skipCarried l k n ≠ 0 := by
  induction k generalizing n with
  | zero => exact hn
  | succ k ih =>
    unfold skipCarried
    split
    · exact ih _ (nextNumber_ne n)
    · exact hn

theorem Part.drawNumber_ok (h : p.ok) : p.drawNumber.2.ok :=
  ⟨h.1, ⟨h.2.1.1, nextNumber_ne _⟩, h.2.2⟩

theorem Part.absorbOwner_ok (b : Nat) (a : Owner) (h : p.ok) : (p.absorbOwner b a).ok := by
  unfold Part.absorbOwner
  split
  · next s x _ _ =>
    refine Part.setHide_ok _ _ ?_
    have h1 : ∀ y, ({ p.setHide (.entry b) y with
        tracker.prev := repoint a (.entry b) (p.setHide (.entry b) y).tracker.prev
        tracker.cur := repoint a (.entry b) (p.setHide (.entry b) y).tracker.cur } : Part).ok :=
      fun y => Part.setHide_ok (.entry b) y h
    cases a with
    | spill => exact h1 _
    | entry i => exact h1 _
  · exact h

theorem Part.birthAt_ok (o : Owner) (g : SegPlan) (h : p.ok) : (p.birthAt o g).ok :=
  Part.setHide_ok _ _ (Part.birthLot_ok (Part.drawNumber_ok h))

theorem Part.birth_ok (g : SegPlan) (h : p.ok) : (p.birth g).2.ok := by
  unfold Part.birth
  split
  · exact Part.birthAt_ok _ _ h
  · split
    · exact h
    · exact Part.raise_ok _ _ (Part.birthAt_ok _ _ h)

theorem Part.mergeOwners_ok (os : List Owner) (h : p.ok) : (p.mergeOwners os).2.ok := by
  unfold Part.mergeOwners
  split
  · exact h
  · split
    · exact h
    · dsimp only
      have h1 : ∀ (b : Nat) (l : List Owner), (l.foldl (fun p a => p.absorbOwner b a) p).ok :=
        fun b l => foldl_ok (fun _ a hq => Part.absorbOwner_ok b a hq) l h
      split
      · exact Part.absorbOwner_ok _ _ (h1 _ _)
      · exact h1 _ _

theorem Part.flagFragment_ok (o : Owner) (h : p.ok) : (p.flagFragment o).ok := by
  unfold Part.flagFragment
  split
  · split
    · exact h
    · exact Part.raise_ok _ _ (Part.setHide_ok _ _ h)
  · exact h

theorem Part.ownSegment_ok (g : SegPlan) (h : p.ok) : (p.ownSegment g).ok := by
  unfold Part.ownSegment
  have h1 := Part.birth_ok g h
  have h2 := Part.mergeOwners_ok (p.ownerSet g) h
  dsimp only
  by_cases c : (p.ownerSet g).isEmpty = true
  · simp only [if_pos c]
    split
    · exact Part.flagFragment_ok _ h1
    · exact h1
  · simp only [if_neg c]
    split
    · exact Part.flagFragment_ok _ h2
    · exact h2

theorem Part.accumulate_ok (r : CondRow) (h : p.ok) : (p.accumulate r).ok :=
  foldl_ok (fun _ _ hq => Part.modifyHide_ok _ _ hq) _ (foldl_ok (fun _ _ hq => Part.modifyHide_ok _ _ hq) _ h)

theorem Part.noteClosed_ok (o : Owner) (x : Hide) (h : p.ok) : (p.noteClosed o x).ok := by
  cases o with
  | spill => exact h
  | entry i => exact Part.addRecent_ok _ h

theorem Part.closeHide_ok (c : CloseCause) (o : Owner) (h : p.ok) : (p.closeHide c o).ok := by
  unfold Part.closeHide
  have h1 := Part.breachOwned_ok o h
  dsimp only
  split
  · exact h1
  · exact Part.reexamineMarks_ok (Part.noteClosed_ok _ _ (Part.setHide_ok _ _ (Part.takeHide_ok _ _ _ h1)))

/-! ### Sites and the pass -/

theorem Part.searchSites_ok (hs : List Nat) (ss : List Seg) (done : List Nat) (h : p.ok) : (p.searchSites hs ss done).ok := by
  induction ss generalizing p done with
  | nil => exact h
  | cons s ss ih =>
    unfold Part.searchSites
    split
    · exact ih _ h
    · split
      · exact ih _ h
      · split
        · exact ih _ (Part.modifyHide_ok _ _ h)
        · exact ih _ h

theorem Part.siteStage_ok (r : CondRow) (h : p.ok) : (p.siteStage r).ok := by
  unfold Part.siteStage
  exact Part.searchSites_ok _ _ _ h

theorem Part.emptyLists_ok (h : p.ok) : p.emptyLists.ok := h

theorem Part.quietTests_ok (h : p.ok) : p.quietTests.ok := Part.closingTest_ok (Part.applySnapshotIfQuiet_ok h)

theorem Part.closeAll_ok (c : CloseCause) (os : List Owner) (h : p.ok) : (p.closeAll c os).ok :=
  foldl_ok (fun _ o hq => Part.closeHide_ok c o hq) _ h

theorem Part.takeRestart_ok (h : p.ok) : p.takeRestart.ok :=
  Part.quietTests_ok (Part.emptyLists_ok (Part.closeAll_ok _ _ (Part.schedulerRestart_ok h)))

theorem Part.takeRestarts_ok (n : Nat) (h : p.ok) : (p.takeRestarts n).ok := by
  induction n generalizing p with
  | zero => exact h
  | succ n ih => exact ih (Part.takeRestart_ok h)

theorem Part.passEnd_ok (h : p.ok) : p.passEnd.ok := by
  unfold Part.passEnd
  have h0 : ({ p with free := p.free + 1, tracker.restartsWaiting := 0 } : Part).ok := h
  dsimp only
  split
  · exact Part.quietTests_ok (Part.takeWaitingNotice_ok h)
  · apply Part.quietTests_ok
    apply Part.takeWaitingNotice_ok
    apply Part.takeRestarts_ok
    have h1 := Part.takeWaitingNotice_ok h0
    split
    · split
      · exact Part.quietTests_ok h1
      · exact Part.quietTests_ok h0
    · split
      · exact h1
      · exact h0

theorem Part.exchangeLists_ok (h : p.ok) : p.exchangeLists.ok := by
  unfold Part.exchangeLists
  exact Part.passEnd_ok h

theorem Part.atStage_ok (r : CondRow) (st : PassStage) (h : p.ok) : (p.atStage r st).ok := h

theorem Part.takeRow_ok (h : p.ok) : p.takeRow.ok := by
  unfold Part.takeRow
  split
  · exact h
  · next r rest hq =>
    refine Part.settleIncrement_ok ?_
    refine ⟨⟨h.1.1, ?_⟩, h.2⟩
    have := h.1.2
    rw [hq] at this
    exact Nat.le_of_succ_le this

theorem Part.truncated_ok (h : p.ok) : p.truncated.ok := h

theorem Part.checkedStage_ok (r : CondRow) (h : p.ok) : (p.checkedStage r).ok := by
  unfold Part.checkedStage
  exact Part.atStage_ok _ _ (Part.checkHoles_ok h)

theorem Part.accumulatedStage_ok (r : CondRow) (h : p.ok) : (p.accumulatedStage r).ok := by
  unfold Part.accumulatedStage
  exact Part.atStage_ok _ _ (Part.accumulate_ok r h)

theorem finishSites_ok (r : CondRow) (h : p.ok) : (finishSites r p).ok :=
  Part.exchangeLists_ok (Part.atStage_ok _ _ (Part.siteStage_ok r h))

theorem finishClosing_ok (r : CondRow) (os : List Owner) (h : p.ok) : (finishClosing r os p).ok := by
  induction os generalizing p with
  | nil => exact finishSites_ok r (Part.atStage_ok _ _ h)
  | cons o os ih => exact ih (Part.atStage_ok _ _ (Part.closeHide_ok _ _ h))

theorem finishChecking_ok (r : CondRow) (h : p.ok) : (finishChecking r p).ok :=
  finishClosing_ok r _ (Part.checkedStage_ok r h)

theorem finishGaps_ok (r : CondRow) (gs : List Gap) (h : p.ok) : (finishGaps r gs p).ok := by
  induction gs generalizing p with
  | nil => exact finishChecking_ok r (Part.atStage_ok _ _ h)
  | cons g gs ih => exact ih (Part.atStage_ok _ _ (Part.classifyGap_ok _ h))

theorem finishAccumulation_ok (r : CondRow) (h : p.ok) : (finishAccumulation r p).ok :=
  finishGaps_ok r _ (Part.accumulatedStage_ok r h)

theorem finishOwnership_ok (r : CondRow) (gs : List SegPlan) (h : p.ok) : (finishOwnership r gs p).ok := by
  induction gs generalizing p with
  | nil => exact finishAccumulation_ok r (Part.atStage_ok _ _ h)
  | cons g gs ih => exact ih (Part.atStage_ok _ _ (Part.ownSegment_ok _ h))

theorem finishSegmentation_ok (r : CondRow) (h : p.ok) : (finishSegmentation r p).ok :=
  finishOwnership_ok r _ (Part.atStage_ok _ _ h)

theorem finishTruncating_ok (r : CondRow) (os : List Owner) (h : p.ok) : (finishTruncating r os p).ok := by
  induction os generalizing p with
  | nil => exact finishSegmentation_ok r (Part.atStage_ok _ _ (Part.truncated_ok h))
  | cons o os ih => exact ih (Part.atStage_ok _ _ (Part.closeHide_ok _ _ h))

theorem Part.finishPass_ok (h : p.ok) : p.finishPass.ok := by
  unfold Part.finishPass
  split
  · exact h
  · split
    · exact finishTruncating_ok _ _ h
    · exact finishSegmentation_ok _ h
    · exact finishOwnership_ok _ _ h
    · exact finishAccumulation_ok _ h
    · exact finishGaps_ok _ _ h
    · exact finishChecking_ok _ h
    · exact finishClosing_ok _ _ h
    · exact finishSites_ok _ h
    · exact Part.exchangeLists_ok h

theorem Part.passUnit_ok (h : p.ok) : p.passUnit.ok := by
  unfold Part.passUnit
  split
  · exact h
  · split
    · exact Part.truncated_ok h
    · exact Part.closeHide_ok _ _ h
    · exact h
    · exact h
    · exact Part.ownSegment_ok _ h
    · exact Part.accumulatedStage_ok _ h
    · exact h
    · exact Part.classifyGap_ok _ h
    · exact Part.checkedStage_ok _ h
    · exact h
    · exact Part.closeHide_ok _ _ h
    · exact Part.siteStage_ok _ h
    · exact Part.exchangeLists_ok h

theorem Part.passUnits_ok (n : Nat) (h : p.ok) : (p.passUnits n).ok := by
  induction n generalizing p with
  | zero => exact h
  | succ n ih => exact ih (Part.passUnit_ok h)

theorem Part.rowPass_ok (u : Option Nat) (h : p.ok) : (p.rowPass u).ok := by
  unfold Part.rowPass
  have h' : (if p.tracker.pass.isSome then p else p.takeRow).ok := by
    split
    · exact h
    · exact Part.takeRow_ok h
  cases u with
  | none => exact Part.finishPass_ok h'
  | some n => exact Part.passUnits_ok n h'

end Sys2Proof.Machine
end

