-- ==== Sys2Proof/Laws/OkIntake.lean ====
section
/-! SUPPORT. The bounds and agreements of Part.ok through row intake and the commands of the setup page. -/

namespace Sys2Proof.Machine

variable {p : Part}

/-- Only row intake of an agreeing part changes. -/
theorem Part.withIntake_ok (i : Intake) (hi : i.ok) (h : p.ok) : ({ p with intake := i } : Part).ok := ⟨hi, h.2⟩

@[simp] theorem Part.countDropped_buffers (n : Nat) : (p.countDropped n).intake.buffers = p.intake.buffers := by
  unfold Part.countDropped; split <;> rfl

@[simp] theorem Part.countDropped_queue (n : Nat) : (p.countDropped n).intake.queue = p.intake.queue := by
  unfold Part.countDropped; split <;> rfl

@[simp] theorem Part.rowIncomplete_buffers (s : BitVec 6) : (p.rowIncomplete s).intake.buffers = p.intake.buffers := by
  simp [Part.rowIncomplete]

@[simp] theorem Part.rowIncomplete_queue (s : BitVec 6) : (p.rowIncomplete s).intake.queue = p.intake.queue := by
  simp [Part.rowIncomplete]

theorem Part.countDropped_ok (n : Nat) (h : p.ok) : (p.countDropped n).ok := by
  unfold Part.countDropped; split <;> exact h

theorem Part.rowIncomplete_ok (s : BitVec 6) (h : p.ok) : (p.rowIncomplete s).ok :=
  Part.countDropped_ok _ (Part.raise_ok _ _ h)

theorem Part.freeBuffer_ok (s : BitVec 6) (h : p.ok) : (p.freeBuffer s).ok :=
  Part.withIntake_ok _ ⟨le_trans (List.length_filter_le _ _) h.1.1, h.1.2⟩ h

/-- After making room at most one buffer is HELD (R4). -/
theorem Part.evict_ok (h : p.ok) : p.evict.ok ∧ p.evict.intake.buffers.length ≤ 1 := by
  unfold Part.evict
  have hb := h.1.1
  split
  · next a b rest e =>
    rw [e] at hb
    simp only [List.length_cons] at hb
    have hr : rest.length = 0 := by omega
    refine ⟨Part.rowIncomplete_ok _ (Part.withIntake_ok _ ⟨?_, h.1.2⟩ h), ?_⟩
    · simp only [List.length_cons]; omega
    · rw [Part.rowIncomplete_buffers]; simp [hr]
  · next hn =>
    refine ⟨h, ?_⟩
    match e : p.intake.buffers, hn with
    | [], _ => simp
    | [_], _ => simp
    | a :: b :: r, hn => exact absurd rfl (hn a b r)

theorem Part.ensureBuffer_ok (s : BitVec 6) (h : p.ok) : (p.ensureBuffer s).ok := by
  unfold Part.ensureBuffer
  split
  · exact h
  · have he := Part.evict_ok h
    refine Part.withIntake_ok _ ⟨?_, he.1.1.2⟩ he.1
    simp only [List.length_append, List.length_cons, List.length_nil]
    have := he.2
    omega

theorem Part.beamWord_ok (s o : BitVec 6) (en : Lanes) (d : Word) (h : p.ok) : (p.beamWord s o en d).ok := by
  unfold Part.beamWord
  split
  · have he := Part.ensureBuffer_ok s h
    exact Part.withIntake_ok _ ⟨by simpa using he.1.1, he.1.2⟩ he
  · exact h

/-! ### Conditioning and the sequence check -/

@[simp] theorem Part.stickBeam_queue (b : Nat) : (p.stickBeam b).intake.queue = p.intake.queue := by
  simp [Part.stickBeam]

theorem Part.stickBeam_ok (b : Nat) (h : p.ok) : (p.stickBeam b).ok :=
  Part.giveNotice_ok (Part.raise_ok _ _ (Part.withIntake_ok _ ⟨h.1.1, h.1.2⟩ h))

@[simp] theorem Part.condition_queue (r : SubRows) : (p.condition r).2.intake.queue = p.intake.queue := by
  unfold Part.condition
  exact foldl_keep (f := fun q : Part => q.intake.queue) (by simp) _ _

theorem Part.condition_ok (r : SubRows) (h : p.ok) : (p.condition r).2.ok := by
  unfold Part.condition
  exact foldl_ok (fun _ b hq => Part.stickBeam_ok b hq) _ (Part.withIntake_ok _ ⟨h.1.1, h.1.2⟩ h)

theorem Part.queueRow_ok (r : CondRow) (hl : p.intake.queue.length < 4) (h : p.ok) : (p.queueRow r).ok :=
  Part.withIntake_ok _ ⟨h.1.1, by simpa using hl⟩ h

theorem Part.acceptRow_ok (s : Half) (h : p.ok) : (p.acceptRow s).ok :=
  Part.restartSignal_ok (Part.mark_ok _ (Part.withIntake_ok _ ⟨h.1.1, h.1.2⟩ h))

theorem Part.overrun_ok (s : Half) (h : p.ok) : (p.overrun s).ok := Part.countDropped_ok _ (Part.raise_ok _ _ h)

theorem Part.syncRow_ok (s : Half) (r : SubRows) (h : p.ok) : (p.syncRow s r).ok := by
  unfold Part.syncRow
  split
  · exact (Part.overrun_ok s h)
  · next hf =>
    unfold Part.freeRows at hf
    have h1 : ({ p with intake.syncPending := false } : Part).ok := h
    have hc := Part.condition_ok r h1
    have hq := Part.queueRow_ok { (Part.condition { p with intake.syncPending := false } r).1 with trunc := p.trackerBusy }
      (by rw [Part.condition_queue]; show p.intake.queue.length < 4; omega) hc
    dsimp only
    apply Part.acceptRow_ok
    split
    · exact Part.raise_ok _ _ hq
    · exact hq

theorem Part.rowInSequence_ok (s : Half) (r : SubRows) (hl : p.intake.queue.length < 4) (h : p.ok) :
    (p.rowInSequence s r).ok :=
  Part.acceptRow_ok _ (Part.queueRow_ok _ ((Part.condition_queue r).symm ▸ hl) (Part.condition_ok r h))

theorem Part.bridgedRow_ok (d : Nat) (s : Half) (r : SubRows) (hl : p.intake.queue.length + d < 4) (h : p.ok) :
    (p.bridgedRow d s r).ok := by
  unfold Part.bridgedRow
  refine Part.rowInSequence_ok s r ?_ (Part.mark_ok _ (Part.withIntake_ok _ ⟨h.1.1, ?_⟩ h))
  · simp only [Part.mark_intake, List.length_append, List.length_replicate]
    omega
  · simp only [List.length_append, List.length_replicate]
    omega

theorem Part.beltGapRow_ok (d : Nat) (s : Half) (r : SubRows) (hl : p.intake.queue.length < 4) (h : p.ok) :
    (p.beltGapRow d s r).ok :=
  Part.acceptRow_ok _ (Part.raise_ok _ _ (Part.queueRow_ok _ ((Part.condition_queue r).symm ▸ hl) (Part.condition_ok r h)))

theorem Part.oldRow_ok (h : p.ok) : p.oldRow.ok := Part.mark_ok _ (Part.withIntake_ok _ ⟨h.1.1, h.1.2⟩ h)

theorem Part.completedRow_ok (sync : Bool) (s : Half) (r : SubRows) (h : p.ok) : (p.completedRow sync s r).ok := by
  unfold Part.completedRow
  dsimp only
  split
  · exact Part.syncRow_ok s r h
  · split
    · exact Part.oldRow_ok h
    · split
      · split
        · exact Part.overrun_ok s h
        · next hf => exact Part.rowInSequence_ok s r (by unfold Part.freeRows at hf; omega) h
      · split
        · next hb => exact Part.bridgedRow_ok _ s r (by unfold Part.freeRows at hb; omega) h
        · split
          · exact Part.overrun_ok s h
          · next hf => exact Part.beltGapRow_ok _ s r (by unfold Part.freeRows at hf; omega) h

theorem Part.dropHeader_ok (s : BitVec 6) (sync : Bool) (h : p.ok) : (p.dropHeader s sync).ok := by
  have h1 := Part.rowIncomplete_ok s (Part.freeBuffer_ok s h)
  unfold Part.dropHeader
  dsimp only
  split
  · exact Part.withIntake_ok _ ⟨h1.1.1, h1.1.2⟩ h1
  · exact h1

theorem Part.header_ok (s : BitVec 6) (en : Lanes) (d : Word) (h : p.ok) : (p.header s en d).ok := by
  unfold Part.header
  split
  · split
    · split
      · exact Part.completedRow_ok _ _ _ (Part.freeBuffer_ok s h)
      · exact Part.dropHeader_ok _ _ h
    · exact Part.dropHeader_ok _ _ h
  · exact h

theorem Part.intakeRestart_ok (h : p.ok) : p.intakeRestart.ok := by
  have h1 := Part.countDropped_ok p.intake.queue.length h
  exact Part.withIntake_ok _ ⟨h1.1.1, Nat.zero_le _⟩ h1

/-! ### Commands -/

/-- The recorder as a changed ring finds it: P and C 0, no record in progress (R189). -/
def Part.clearRing (p : Part) : Part := { p with recorder.p := 0, recorder.c := 0, recorder.inProgress := none }

theorem Part.clearRing_dropRecord (r : Record) : (p.dropRecord r).clearRing = p.clearRing.dropRecord r := by
  unfold Part.dropRecord Part.flagDropped Part.clearRing
  cases r <;> dsimp only [Part.mark] <;> (try split) <;> rfl

theorem Part.abandonRecord_inProgress : p.abandonRecord.recorder.inProgress = none := by
  unfold Part.abandonRecord
  split
  · unfold Part.dropRecord; dsimp only; split <;> simp
  · assumption

theorem Part.abandonRecord_clearRing_ok (h : p.clearRing.ok) : p.abandonRecord.clearRing.ok := by
  unfold Part.abandonRecord
  split
  · rw [Part.clearRing_dropRecord]; exact Part.dropRecord_ok _ h
  · exact h

theorem Part.zeroRing_ok (hn : p.recorder.inProgress = none) (h : p.clearRing.ok) : p.zeroRing.ok := by
  have : p.zeroRing = p.clearRing.mark wProducer := by unfold Part.zeroRing Part.clearRing; rw [← hn]
  rw [this]
  exact Part.mark_ok _ h

theorem Part.dropWaiting_ok (h : p.ok) : p.dropWaiting.ok := by
  refine foldl_ok (fun _ r hr => Part.dropRecord_ok r hr) _ ?_
  obtain ⟨a, b, c, d, e, f, g⟩ := h
  exact ⟨a, b, c, d, e, f, Nat.zero_le _, g.2⟩

/-- Whatever record was in progress and wherever P and C stood, a changed ring leaves an agreeing part (R189). -/
theorem Part.ringChange_ok (h : p.clearRing.ok) : p.ringChange.ok := by
  have hz := Part.zeroRing_ok Part.abandonRecord_inProgress (Part.abandonRecord_clearRing_ok h)
  unfold Part.ringChange
  dsimp only
  split
  · exact Part.dropWaiting_ok hz
  · exact hz

/-- New unguarded settings keep the part agreeing when the ring keeps its size, and make P and C agree again when it does not. -/
theorem Part.setUnguarded_ok (u : Unguarded) (h : p.ok) (hs : p.setup.unguarded.ringSize = u.ringSize) :
    (p.setUnguarded u).ok := by
  obtain ⟨a, b, c, d, e, f, g⟩ := h
  exact ⟨a, b, c, d, e, f, hs ▸ g⟩

theorem Part.setUnguarded_clearRing_ok (u : Unguarded) (h : p.ok) : (p.setUnguarded u).clearRing.ok := by
  obtain ⟨a, b, c, d, e, f, g⟩ := h
  exact ⟨a, b, c, d, e, f, g.1, fun hn => ⟨Nat.pos_of_ne_zero hn, Nat.pos_of_ne_zero hn⟩, fun _ => ⟨rfl, rfl, rfl⟩⟩

theorem Part.ringAfterCommit_ok (u : Unguarded) (h : p.ok) : ((p.setUnguarded u).ringAfterCommit p.setup.unguarded).ok := by
  unfold Part.ringAfterCommit
  split
  · exact Part.ringChange_ok (Part.setUnguarded_clearRing_ok u h)
  · next hs =>
    rw [not_or, not_not, not_not] at hs
    exact Part.setUnguarded_ok u h hs.2

theorem Part.applyUnguarded_ok (u : Unguarded) (h : p.ok) : (p.applyUnguarded u).ok :=
  Part.timersAfterCommit_ok _ _ (Part.ringAfterCommit_ok u h)

theorem Part.commitGuarded_ok (t : Half) (g : Guarded) (h : p.ok) : (p.commitGuarded t g).2.ok := by
  unfold Part.commitGuarded
  split
  · exact Part.setSnapshot_ok _ h
  · split
    · exact Part.setSnapshot_ok _ (Part.applyGuarded_ok _ h)
    · exact Part.setSnapshot_ok _ h

theorem Part.commit_ok (t : Half) (h : p.ok) : (p.commit t).ok := by
  unfold Part.commit
  split
  · exact Part.setResult_ok _ h
  · exact Part.answer_ok _ _ _ (Part.commitGuarded_ok _ _ (Part.applyUnguarded_ok _ h))

theorem Part.lotNext_ok (t : Half) (h : p.ok) : (p.lotNext t).ok := by
  unfold Part.lotNext
  dsimp only
  split
  · exact Part.answer_ok _ _ _ h
  · next hn =>
    rw [not_or] at hn
    exact Part.answer_ok _ _ _ (Part.closingTest_ok (Part.lotTransition_ok _ _ hn.2 h))

theorem Part.manualEnter_ok (t : Half) (h : p.ok) : (p.manualEnter t).ok := by
  unfold Part.manualEnter
  dsimp only
  split
  · exact Part.answer_ok _ _ _ h
  · exact Part.answer_ok _ _ _ (Part.leaveUnstamped_ok _ _ (Part.drawNumber_ok h))

theorem Part.clearStickyCmd_ok (t : Half) (h : p.ok) : (p.clearStickyCmd t).ok :=
  Part.answer_ok _ _ _ (Part.clearSticky_ok h)

theorem Part.headReset_ok (t : Half) (h : p.ok) : (p.headReset t).ok := Part.answer_ok _ _ _ (Part.enterHoming_ok _ h)

theorem Part.parkNow_ok (t : Half) (h : p.ok) : (p.parkNow t).ok := by
  unfold Part.parkNow
  split
  · exact Part.answer_ok _ _ _ (Part.parkExpiry_ok h)
  · exact Part.answer_ok _ _ _ h
  · exact Part.answer_ok _ _ _ h

theorem Part.restart_ok (t : Half) (h : p.ok) : (p.restart t).ok := by
  have h1 := Part.intakeRestart_ok (Part.answer_ok t 7 .done h)
  unfold Part.restart
  dsimp only
  split
  · exact h1
  · exact Part.takeRestart_ok h1

theorem Part.unknownCommand_ok (c : BitVec 4) (t : Half) (h : p.ok) : (p.unknownCommand c t).ok := Part.answer_ok _ _ _ h

theorem Part.commandBeat_ok (en : Lanes) (d : Word) (h : p.ok) : (p.commandBeat en d).ok := by
  unfold Part.commandBeat
  dsimp only
  split
  · split
    · exact Part.commit_ok _ h
    · exact Part.lotNext_ok _ h
    · exact Part.manualEnter_ok _ h
    · exact Part.clearStickyCmd_ok _ h
    · exact Part.headReset_ok _ h
    · exact Part.parkNow_ok _ h
    · exact Part.restart_ok _ h
    · exact Part.unknownCommand_ok _ _ h
  · exact h

end Sys2Proof.Machine
end

