-- ==== Sys2Proof/Laws/OkPath.lean ====
section
/-! SUPPORT. The record writer, the beats handed over, the frames of the head link and the memory path keep State.ok, one
operation at a time. -/

namespace Sys2Proof.Machine

variable {p : Part} {s : State}

/-! ### The part -/

theorem Part.moveOut_ok (h : p.ok) : p.moveOut.ok := by
  unfold Part.moveOut
  obtain ⟨a, b, c, d, e, f, g⟩ := h
  split
  · next r rest hn ho =>
    have hl : rest.length ≤ 8 := by
      have := g.1
      rw [ho] at this
      simp only [List.length_cons] at this
      omega
    split
    · exact Part.dropRecord_ok _ ⟨a, b, c, d, e, f, hl, g.2⟩
    · next hs =>
      split
      · exact ⟨a, b, c, d, e, f, g⟩
      · exact ⟨a, b, c, d, e, f, hl, g.2.1, fun hz => absurd hz hs⟩
  · exact ⟨a, b, c, d, e, f, g⟩

theorem Part.writeConsumer_ok (en : Lanes) (d : Word) (h : p.ok) : (p.writeConsumer en d).ok := by
  unfold Part.writeConsumer
  split
  · exact h
  · obtain ⟨a, b, c, d, e, f, g⟩ := h
    refine ⟨a, b, c, d, e, f, g.1, fun hn => ⟨(g.2.1 hn).1, ?_⟩, fun hz => ⟨(g.2.2 hz).1, ?_, (g.2.2 hz).2.2⟩⟩
    · dsimp only
      split
      · assumption
      · exact (g.2.1 hn).2
    · dsimp only
      split
      · next hlt => rw [hz] at hlt; exact absurd hlt (Nat.not_lt_zero _)
      · exact (g.2.2 hz).2.1

theorem Part.rowSlotBeat_ok (x o : BitVec 6) (en : Lanes) (d : Word) (h : p.ok) : (p.rowSlotBeat x o en d).ok := by
  unfold Part.rowSlotBeat
  split
  · exact Part.header_ok _ _ _ h
  · exact Part.beamWord_ok _ _ _ _ h

theorem Part.rowRingBeat_ok (a : Nat) (en : Lanes) (d : Word) (h : p.ok) : (p.rowRingBeat a en d).ok := by
  unfold Part.rowRingBeat
  dsimp only
  split
  · exact Part.rowSlotBeat_ok _ _ _ _ h
  · exact h

theorem Part.setupBeat_ok (i : Nat) (en : Lanes) (d : Word) (h : p.ok) : (p.setupBeat i en d).ok := by
  unfold Part.setupBeat
  repeat' split
  · exact Part.writeStaged_ok _ _ _ h
  · exact Part.writeArgument_ok _ _ _ h
  · exact Part.writeArgument_ok _ _ _ h
  · exact Part.commandBeat_ok _ _ h
  · exact h

theorem Part.pageBeat_ok (i : Nat) (en : Lanes) (d : Word) (h : p.ok) : (p.pageBeat i en d).ok := by
  unfold Part.pageBeat
  repeat' split
  · exact Part.writeConsumer_ok _ _ h
  · exact Part.setupBeat_ok _ _ _ h
  · exact Part.mark_ok _ h

theorem Part.writeBeat_ok (b : Nat) (a : BitVec 24) (en : Lanes) (d : Word) (h : p.ok) : (p.writeBeat b a en d).ok := by
  have h1 := Part.markBeat_ok true (wordNumber a) en d (Part.rowRingBeat_ok a.toNat en d h)
  unfold Part.writeBeat
  dsimp only
  split
  · exact h
  · split
    · exact Part.pageBeat_ok _ _ _ h1
    · exact h1

theorem Part.readBeat_ok (a : BitVec 24) (en : Lanes) (d : Word) (h : p.ok) : (p.readBeat a en d).ok := by
  unfold Part.readBeat
  split
  · exact h
  · exact Part.markBeat_ok _ _ _ _ h

theorem Part.boundaryIfIdle_ok (h : p.ok) : p.boundaryIfIdle.ok := by
  unfold Part.boundaryIfIdle
  split
  · exact h
  · exact Part.boundary_ok h

theorem Part.endFrameIfSent_ok (ws : List (BitVec 16)) (hw : ws.length = 6) (h : p.ok) : (p.endFrameIfSent ws).ok := by
  unfold Part.endFrameIfSent
  split
  · next f hf => exact Part.endFrame_ok _ _ (h.2.2.2.1.2.1 f hf) hw h
  · exact h

/-! ### Posting -/

theorem MemPath.placesTaken_post (a : BitVec 24) (d : Word) : (s.post a d).path.placesTaken = s.path.placesTaken + 1 := by
  simp [State.post, MemPath.placesTaken]
  omega

/-- A word posted into a free place keeps the path in its bounds (R171). -/
theorem State.post_ok (a : BitVec 24) (d : Word) (hp : s.path.placesTaken < 16) (h : s.ok) : (s.post a d).ok := by
  refine ⟨h.1, ⟨?_, h.2.1.2⟩, h.2.2⟩
  rw [MemPath.placesTaken_post]
  exact hp

theorem State.withPart_ok (q : Part) (hq : q.ok) (h : s.ok) : ({ s with part := q } : State).ok := ⟨h.1, h.2.1, hq⟩

theorem State.postStatus_ok (hp : s.path.placesTaken < 16) (h : s.ok) : s.postStatus.ok := by
  unfold State.postStatus
  split
  · exact h
  · exact State.withPart_ok _ h.2.2 (State.post_ok _ _ hp h)

theorem State.postRecordWord_ok (hp : s.path.placesTaken < 16) (h : s.ok) : s.postRecordWord.ok := by
  unfold State.postRecordWord
  split
  · next o ho =>
    split
    · refine State.withPart_ok _ ?_ (State.post_ok _ _ hp h)
      obtain ⟨a, b, c, d, e, f, g⟩ := h.2.2
      refine ⟨a, b, c, d, e, f, g.1, g.2.1, fun hz => ?_⟩
      have := (g.2.2 hz).2.2
      rw [ho] at this
      exact absurd this (by simp)
    · exact h
  · exact h

theorem State.postProducerIndex_ok (hp : s.path.placesTaken < 16) (h : s.ok) : s.postProducerIndex.ok := by
  unfold State.postProducerIndex
  split
  · next o ho =>
    split
    · exact h
    · refine State.withPart_ok _ ?_ (State.post_ok _ _ hp h)
      obtain ⟨a, b, c, d, e, f, g⟩ := h.2.2
      have hn : s.part.setup.unguarded.ringSize ≠ 0 := by
        intro hz
        have := (g.2.2 hz).2.2
        rw [ho] at this
        exact absurd this (by simp)
      exact ⟨a, b, c, d, e, f, g.1, fun hn => ⟨Nat.mod_lt _ (Nat.pos_of_ne_zero hn), (g.2.1 hn).2⟩, fun hz => absurd hz hn⟩
  · exact h

theorem State.postRecord_ok (hp : s.path.placesTaken < 16) (h : s.ok) : s.postRecord.ok := by
  unfold State.postRecord
  split
  · split
    · exact State.postRecordWord_ok hp h
    · exact State.postProducerIndex_ok hp h
  · exact h

/-! ### The arbiter -/

theorem State.withTurn_ok (t : Producer) (h : s.ok) : ({ s with path.turn := t } : State).ok := h

theorem State.offerPlace_ok (hp : s.path.placesTaken < 16) (h : s.ok) : s.offerPlace.ok := by
  unfold State.offerPlace
  split
  · exact State.withTurn_ok _ (State.postStatus_ok hp h)
  · exact State.withTurn_ok _ (State.postRecord_ok hp h)
  · exact h

theorem State.startPartWord_ok (h : s.ok) : s.startPartWord.ok := by
  unfold State.startPartWord
  split
  · next w rest hn hq =>
    refine ⟨h.1, ⟨?_, Nat.zero_le _⟩, h.2.2⟩
    have := h.2.1.1
    unfold MemPath.placesTaken at this ⊢
    rw [hn, hq] at this
    simpa using this
  · exact h

theorem State.completePartWord_ok (h : s.ok) : s.completePartWord.ok := by
  unfold State.completePartWord
  split
  · next w hw =>
    have hb := h.2.1.1
    unfold MemPath.placesTaken at hb
    rw [hw] at hb
    dsimp only at hb
    have hl : (MemPath.placesTaken { s.path with ram := s.path.ram.writeWord w.addr 0xF w.data, port := none }) < 16 := by
      unfold MemPath.placesTaken
      dsimp only
      omega
    have h1 : State.ok { s with path.ram := s.path.ram.writeWord w.addr 0xF w.data, path.port := none } :=
      ⟨Memory.wf_writeWord w.addr 0xF w.data (m := s.path.ram) h.1, ⟨Nat.le_of_lt hl, h.2.1.2⟩, h.2.2⟩
    dsimp only
    split
    · exact h1
    · exact State.offerPlace_ok hl h1
  · exact h
  · exact h

theorem State.writePartWords_ok (n : Nat) (h : s.ok) : (s.writePartWords n).ok := by
  induction n generalizing s with
  | zero => exact h
  | succ n ih => exact ih (State.completePartWord_ok (State.startPartWord_ok h))

/-! ### Upstream beats -/

theorem State.carryBeat_ok (w : Bool) (a : BitVec 24) (b : Beat) (h : s.ok) : (s.carryBeat w a b).ok := by
  unfold State.carryBeat
  split
  · exact ⟨Memory.wf_writeWord _ _ _ h.1, h.2.1, Part.writeBeat_ok _ _ _ _ h.2.2⟩
  · exact ⟨h.1, h.2.1, Part.readBeat_ok _ _ _ h.2.2⟩

theorem State.carryBeats_ok (t : Transaction) (bs : List Beat) (k : Nat) (h : s.ok) : (s.carryBeats t bs k).ok := by
  induction bs generalizing s k with
  | nil => exact h
  | cons b bs ih => exact ih _ (State.carryBeat_ok _ _ _ h)

/-- A port that holds no part word takes no place (R171). -/
theorem State.setPort_ok (x : Option PortTxn) (hx : ∀ w, x ≠ some (.partWord w)) (h : s.ok) :
    ({ s with path.port := x } : State).ok := by
  refine ⟨h.1, ⟨?_, h.2.1.2⟩, h.2.2⟩
  have := h.2.1.1
  unfold MemPath.placesTaken at this ⊢
  dsimp only
  split
  · next w => exact absurd rfl (hx w)
  · omega
  · omega

theorem State.carryOn_ok (t : Transaction) (k n : Nat) (h : s.ok) : (s.carryOn t k n).ok := by
  have h1 := State.carryBeats_ok t ((t.beats.drop k).take n) k h
  unfold State.carryOn
  dsimp only
  split
  · exact State.setPort_ok _ (by simp) h1
  · exact State.setPort_ok _ (by simp) h1

theorem State.fairnessWord_ok (h : s.ok) : s.fairnessWord.ok := by
  unfold State.fairnessWord
  split
  · exact State.writePartWords_ok _ h
  · exact h

theorem State.drain_ok (t : Transaction) (h : s.ok) : (s.drain t).ok := State.writePartWords_ok _ h

theorem State.issue_ok (t : Transaction) (h : s.ok) : (s.issue t).ok := by
  have h1 := State.setPort_ok (some (.upstream t 0)) (by simp) h
  exact ⟨h.1, ⟨h1.2.1.1, Nat.min_le_left _ _⟩, h.2.2⟩

theorem State.finishPort_ok (h : s.ok) : s.finishPort.ok := by
  unfold State.finishPort
  split
  · exact h
  · exact State.completePartWord_ok h
  · exact State.carryOn_ok _ _ _ h

theorem State.takeUp_ok (t : Transaction) (h : s.ok) : (s.takeUp t).ok :=
  State.issue_ok t (State.drain_ok t (State.fairnessWord_ok (State.finishPort_ok h)))

theorem State.upstream_ok (r : Option Transaction) (n : Option Nat) (h : s.ok) : (s.upstream r n).ok := by
  unfold State.upstream
  split
  · exact State.carryOn_ok _ _ _ (State.takeUp_ok _ h)
  · split
    · exact State.carryOn_ok _ _ _ h
    · exact h
    · exact h

/-! ### Power-on reset -/

theorem Belt.powerOn_ok : Belt.powerOn.ok := ⟨by decide, by decide, by decide⟩

theorem HeadLink.powerOn_ok : HeadLink.powerOn.ok := ⟨rfl, by simp [HeadLink.powerOn], by decide⟩

theorem LotUnit.powerOn_ok : LotUnit.powerOn.ok := ⟨by simp [LotUnit.powerOn], by decide, by decide⟩

theorem Recorder.powerOn_ok : Recorder.powerOn.ok 0 := ⟨by decide, fun hn => absurd rfl hn, fun _ => ⟨rfl, rfl, rfl⟩⟩

/-- The part after power-on reset agrees, whatever the counter of free values. -/
theorem Part.powerOn_ok (n : Nat) : ({ Part.powerOn with free := n } : Part).ok :=
  ⟨⟨Nat.zero_le _, Nat.zero_le _⟩, ⟨rfl, (by decide : (1 : Half) ≠ 0)⟩, Nat.zero_le _, HeadLink.powerOn_ok, Belt.powerOn_ok,
    LotUnit.powerOn_ok, Recorder.powerOn_ok⟩

theorem State.powerOn_ok (x : BitVec 3) (h : s.ok) : (s.powerOn x).ok :=
  ⟨h.1, ⟨by simp [State.powerOn, MemPath.powerOn, MemPath.placesTaken], by simp [State.powerOn, MemPath.powerOn]⟩,
    Part.powerOn_ok _⟩

end Sys2Proof.Machine
end

