-- ==== Sys2Proof/Laws/PathFrames.lean ====
section
/-! SUPPORT. What the operations of the memory path leave: the waiting commands and the setup page base, always; the RAM and the
port, where they only post. -/

namespace Sys2Proof.Machine

variable (s : State)

@[simp] theorem State.post_base (a : BitVec 24) (d : Word) : (s.post a d).path.base = s.path.base := rfl

@[simp] theorem State.post_ram (a : BitVec 24) (d : Word) : (s.post a d).path.ram = s.path.ram := rfl

@[simp] theorem State.post_port (a : BitVec 24) (d : Word) : (s.post a d).path.port = s.path.port := rfl

/-! ### Posting -/

@[simp] theorem State.postStatus_pending : s.postStatus.pending = s.pending := by
  unfold State.postStatus; split <;> rfl

@[simp] theorem State.postStatus_base : s.postStatus.path.base = s.path.base := by
  unfold State.postStatus; split <;> rfl

@[simp] theorem State.postStatus_ram : s.postStatus.path.ram = s.path.ram := by
  unfold State.postStatus; split <;> rfl

@[simp] theorem State.postStatus_port : s.postStatus.path.port = s.path.port := by
  unfold State.postStatus; split <;> rfl

@[simp] theorem State.postRecordWord_pending : s.postRecordWord.pending = s.pending := by
  unfold State.postRecordWord; split
  · split <;> rfl
  · rfl

@[simp] theorem State.postRecordWord_base : s.postRecordWord.path.base = s.path.base := by
  unfold State.postRecordWord; split
  · split <;> rfl
  · rfl

@[simp] theorem State.postRecordWord_ram : s.postRecordWord.path.ram = s.path.ram := by
  unfold State.postRecordWord; split
  · split <;> rfl
  · rfl

@[simp] theorem State.postRecordWord_port : s.postRecordWord.path.port = s.path.port := by
  unfold State.postRecordWord; split
  · split <;> rfl
  · rfl

@[simp] theorem State.postProducerIndex_pending : s.postProducerIndex.pending = s.pending := by
  unfold State.postProducerIndex; split
  · split <;> rfl
  · rfl

@[simp] theorem State.postProducerIndex_base : s.postProducerIndex.path.base = s.path.base := by
  unfold State.postProducerIndex; split
  · split <;> rfl
  · rfl

@[simp] theorem State.postProducerIndex_ram : s.postProducerIndex.path.ram = s.path.ram := by
  unfold State.postProducerIndex; split
  · split <;> rfl
  · rfl

@[simp] theorem State.postProducerIndex_port : s.postProducerIndex.path.port = s.path.port := by
  unfold State.postProducerIndex; split
  · split <;> rfl
  · rfl

@[simp] theorem State.postRecord_pending : s.postRecord.pending = s.pending := by
  unfold State.postRecord
  split
  · split
    · exact s.postRecordWord_pending
    · exact s.postProducerIndex_pending
  · rfl

@[simp] theorem State.offerPlace_pending : s.offerPlace.pending = s.pending := by
  unfold State.offerPlace
  split
  · exact s.postStatus_pending
  · exact s.postRecord_pending
  · rfl

@[simp] theorem State.postRecord_base : s.postRecord.path.base = s.path.base := by
  unfold State.postRecord
  split
  · split
    · exact s.postRecordWord_base
    · exact s.postProducerIndex_base
  · rfl

@[simp] theorem State.offerPlace_base : s.offerPlace.path.base = s.path.base := by
  unfold State.offerPlace
  split
  · exact s.postStatus_base
  · exact s.postRecord_base
  · rfl

@[simp] theorem State.postRecord_ram : s.postRecord.path.ram = s.path.ram := by
  unfold State.postRecord
  split
  · split
    · exact s.postRecordWord_ram
    · exact s.postProducerIndex_ram
  · rfl

@[simp] theorem State.offerPlace_ram : s.offerPlace.path.ram = s.path.ram := by
  unfold State.offerPlace
  split
  · exact s.postStatus_ram
  · exact s.postRecord_ram
  · rfl

@[simp] theorem State.postRecord_port : s.postRecord.path.port = s.path.port := by
  unfold State.postRecord
  split
  · split
    · exact s.postRecordWord_port
    · exact s.postProducerIndex_port
  · rfl

@[simp] theorem State.offerPlace_port : s.offerPlace.path.port = s.path.port := by
  unfold State.offerPlace
  split
  · exact s.postStatus_port
  · exact s.postRecord_port
  · rfl

/-! ### Part words and upstream beats -/

@[simp] theorem State.startPartWord_pending : s.startPartWord.pending = s.pending := by
  unfold State.startPartWord; split <;> rfl

@[simp] theorem State.completePartWord_pending : s.completePartWord.pending = s.pending := by
  unfold State.completePartWord
  split <;> dsimp only
  split
  · rfl
  · rw [State.offerPlace_pending]

@[simp] theorem State.writePartWords_pending (n : Nat) : (s.writePartWords n).pending = s.pending := by
  induction n generalizing s with
  | zero => rfl
  | succ n ih => exact (ih _).trans ((State.completePartWord_pending _).trans (State.startPartWord_pending _))

@[simp] theorem State.carryBeats_pending (t : Transaction) (bs : List Beat) (k : Nat) : (s.carryBeats t bs k).pending = s.pending := by
  induction bs generalizing s k with
  | nil => rfl
  | cons b bs ih =>
    refine (ih _ _).trans ?_
    unfold State.carryBeat
    split <;> rfl

@[simp] theorem State.carryOn_pending (t : Transaction) (k n : Nat) : (s.carryOn t k n).pending = s.pending := by
  have h := s.carryBeats_pending t ((t.beats.drop k).take n) k
  unfold State.carryOn
  dsimp only
  split <;> exact h

@[simp] theorem State.finishPort_pending : s.finishPort.pending = s.pending := by
  unfold State.finishPort
  split
  · rfl
  · exact s.completePartWord_pending
  · exact s.carryOn_pending _ _ _

@[simp] theorem State.fairnessWord_pending : s.fairnessWord.pending = s.pending := by
  unfold State.fairnessWord
  split
  · exact s.writePartWords_pending 1
  · rfl

@[simp] theorem State.takeUp_pending (t : Transaction) : (s.takeUp t).pending = s.pending := by
  refine (State.writePartWords_pending _ _).trans ?_
  rw [State.fairnessWord_pending, State.finishPort_pending]

@[simp] theorem State.upstream_pending (r : Option Transaction) (n : Option Nat) : (s.upstream r n).pending = s.pending := by
  unfold State.upstream
  split
  · rw [State.carryOn_pending, State.takeUp_pending]
  · split
    · rw [State.carryOn_pending]
    · rfl
    · rfl

@[simp] theorem State.startPartWord_base : s.startPartWord.path.base = s.path.base := by
  unfold State.startPartWord; split <;> rfl

@[simp] theorem State.completePartWord_base : s.completePartWord.path.base = s.path.base := by
  unfold State.completePartWord
  split <;> dsimp only
  split
  · rfl
  · rw [State.offerPlace_base]

@[simp] theorem State.writePartWords_base (n : Nat) : (s.writePartWords n).path.base = s.path.base := by
  induction n generalizing s with
  | zero => rfl
  | succ n ih => exact (ih _).trans ((State.completePartWord_base _).trans (State.startPartWord_base _))

@[simp] theorem State.carryBeats_base (t : Transaction) (bs : List Beat) (k : Nat) : (s.carryBeats t bs k).path.base = s.path.base := by
  induction bs generalizing s k with
  | nil => rfl
  | cons b bs ih =>
    refine (ih _ _).trans ?_
    unfold State.carryBeat
    split <;> rfl

@[simp] theorem State.carryOn_base (t : Transaction) (k n : Nat) : (s.carryOn t k n).path.base = s.path.base := by
  have h := s.carryBeats_base t ((t.beats.drop k).take n) k
  unfold State.carryOn
  dsimp only
  split <;> exact h

@[simp] theorem State.finishPort_base : s.finishPort.path.base = s.path.base := by
  unfold State.finishPort
  split
  · rfl
  · exact s.completePartWord_base
  · exact s.carryOn_base _ _ _

@[simp] theorem State.fairnessWord_base : s.fairnessWord.path.base = s.path.base := by
  unfold State.fairnessWord
  split
  · exact s.writePartWords_base 1
  · rfl

@[simp] theorem State.takeUp_base (t : Transaction) : (s.takeUp t).path.base = s.path.base := by
  refine (State.writePartWords_base _ _).trans ?_
  rw [State.fairnessWord_base, State.finishPort_base]

@[simp] theorem State.upstream_base (r : Option Transaction) (n : Option Nat) : (s.upstream r n).path.base = s.path.base := by
  unfold State.upstream
  split
  · rw [State.carryOn_base, State.takeUp_base]
  · split
    · rw [State.carryOn_base]
    · rfl
    · rfl

/-- The queue is longer by one word after a post. -/
@[simp] theorem State.post_queue (a : BitVec 24) (d : Word) :
    (s.post a d).path.queue = s.path.queue ++ [{ addr := a, data := d }] := rfl

/-- The beats of a transaction pass over a path whose queue, port, fairness count and turn they leave alone. -/
theorem State.carryBeats_path (t : Transaction) (bs : List Beat) (k : Nat) :
    (s.carryBeats t bs k).path.queue = s.path.queue ∧ (s.carryBeats t bs k).path.port = s.path.port ∧
      (s.carryBeats t bs k).path.fairness = s.path.fairness ∧ (s.carryBeats t bs k).path.turn = s.path.turn := by
  induction bs generalizing s k with
  | nil => exact ⟨rfl, rfl, rfl, rfl⟩
  | cons b bs ih =>
    have h := ih (s.carryBeat t.write (beatAddr t.start k) b) (k + 1)
    have e : (s.carryBeat t.write (beatAddr t.start k) b).path.queue = s.path.queue ∧
        (s.carryBeat t.write (beatAddr t.start k) b).path.port = s.path.port ∧
        (s.carryBeat t.write (beatAddr t.start k) b).path.fairness = s.path.fairness ∧
        (s.carryBeat t.write (beatAddr t.start k) b).path.turn = s.path.turn := by
      unfold State.carryBeat
      split <;> exact ⟨rfl, rfl, rfl, rfl⟩
    exact ⟨h.1.trans e.1, h.2.1.trans e.2.1, h.2.2.1.trans e.2.2.1, h.2.2.2.trans e.2.2.2⟩

end Sys2Proof.Machine
end

