-- ==== Sys2Proof/Laws/PerInstr.lean ====
section
/-! SUPPORT. The family OperandRange: which operands make a command one that nothing can spell, command by command. -/

namespace Sys2Proof.Laws

/-- The operands of a command lie outside what a beat or an event can spell. Only four commands have such operands: a transaction
has one to eight beats (9.1), the setup area 80 words and the status block 48 (11.2, 11.3), the codes 1 to 7 their own
commands (11.2). -/
def OperandRange.outside : Instr → Prop
  | .upstreamTransaction (some t) _ => t.beats.length = 0 ∨ 8 < t.beats.length
  | .setupWordWrite word _ _ => 80 ≤ word.toNat
  | .statusBlockWrite word => 48 ≤ word.toNat
  | .unknownCommand code _ => 1 ≤ code.toNat ∧ code.toNat ≤ 7
  | _ => False

/-- A command is well-formed exactly when its operands are not outside their range. -/
def OperandRange.Statement (i : Instr) : Prop := i.wellFormed = true ↔ ¬ OperandRange.outside i

namespace OperandRange

theorem powerOnReset (straps : BitVec 3) : Statement (.powerOnReset straps) := by simp [Statement, outside, Instr.wellFormed]

theorem upstreamTransaction (request : Option Transaction) (pause : Option Nat) : Statement (.upstreamTransaction request pause) := by
  cases request with
  | none => simp [Statement, outside, Instr.wellFormed]
  | some t =>
    simp only [Statement, outside, Instr.wellFormed, Option.all_some, Transaction.wellFormed, Bool.and_eq_true,
      decide_eq_true_eq]
    omega

theorem postedWordWrite : Statement .postedWordWrite := by simp [Statement, outside, Instr.wellFormed]

theorem partWordComplete : Statement .partWordComplete := by simp [Statement, outside, Instr.wellFormed]

theorem beamWordWrite (slot : BitVec 6) (offset : BitVec 6) (enables : Lanes) (data : Word) : Statement (.beamWordWrite slot offset enables data) := by simp [Statement, outside, Instr.wellFormed]

theorem headerWrite (slot : BitVec 6) (enables : Lanes) (data : Word) : Statement (.headerWrite slot enables data) := by simp [Statement, outside, Instr.wellFormed]

theorem rowPass (units : Option Nat) : Statement (.rowPass units) := by simp [Statement, outside, Instr.wellFormed]

theorem recordMoveOut : Statement .recordMoveOut := by simp [Statement, outside, Instr.wellFormed]

theorem recordWordHandIn : Statement .recordWordHandIn := by simp [Statement, outside, Instr.wellFormed]

theorem producerIndexHandIn : Statement .producerIndexHandIn := by simp [Statement, outside, Instr.wellFormed]

theorem statusWordPost : Statement .statusWordPost := by simp [Statement, outside, Instr.wellFormed]

theorem setupWordWrite (word : BitVec 7) (enables : Lanes) (data : Word) : Statement (.setupWordWrite word enables data) := by
  simp only [Statement, outside, Instr.wellFormed, decide_eq_true_eq]; omega

theorem argumentWordWrite (which : ArgWord) (enables : Lanes) (data : Word) : Statement (.argumentWordWrite which enables data) := by simp [Statement, outside, Instr.wellFormed]

theorem consumerIndexWrite (enables : Lanes) (data : Word) : Statement (.consumerIndexWrite enables data) := by simp [Statement, outside, Instr.wellFormed]

theorem statusBlockWrite (word : BitVec 6) : Statement (.statusBlockWrite word) := by
  simp only [Statement, outside, Instr.wellFormed, decide_eq_true_eq]; omega

theorem markWindowMatch (write : Bool) (wordAddr : BitVec 22) (enables : Lanes) (data : Word) : Statement (.markWindowMatch write wordAddr enables data) := by simp [Statement, outside, Instr.wellFormed]

theorem commit (tag : Half) : Statement (.commit tag) := by simp [Statement, outside, Instr.wellFormed]

theorem lotNext (tag : Half) : Statement (.lotNext tag) := by simp [Statement, outside, Instr.wellFormed]

theorem manualEnter (tag : Half) : Statement (.manualEnter tag) := by simp [Statement, outside, Instr.wellFormed]

theorem clearSticky (tag : Half) : Statement (.clearSticky tag) := by simp [Statement, outside, Instr.wellFormed]

theorem headReset (tag : Half) : Statement (.headReset tag) := by simp [Statement, outside, Instr.wellFormed]

theorem parkNow (tag : Half) : Statement (.parkNow tag) := by simp [Statement, outside, Instr.wellFormed]

theorem restart (tag : Half) : Statement (.restart tag) := by simp [Statement, outside, Instr.wellFormed]

theorem unknownCommand (code : BitVec 4) (tag : Half) : Statement (.unknownCommand code tag) := by
  simp only [Statement, outside, Instr.wellFormed, isUnknownCode, Bool.or_eq_true, decide_eq_true_eq]
  revert code; decide

theorem haltTimerExpiry : Statement .haltTimerExpiry := by simp [Statement, outside, Instr.wellFormed]

theorem parkTimerExpiry : Statement .parkTimerExpiry := by simp [Statement, outside, Instr.wellFormed]

theorem frameBoundary : Statement .frameBoundary := by simp [Statement, outside, Instr.wellFormed]

theorem frameEnd (carriage : BitVec 16) (wheel1 : BitVec 16) (wheel2 : BitVec 16) (wheel3 : BitVec 16) (wheel4 : BitVec 16) (hammer : BitVec 16) : Statement (.frameEnd carriage wheel1 wheel2 wheel3 wheel4 hammer) := by simp [Statement, outside, Instr.wellFormed]

theorem noStrike : Statement .noStrike := by simp [Statement, outside, Instr.wellFormed]

end OperandRange

end Sys2Proof.Laws
end

