-- ==== Sys2Proof/Laws/TrackerFrames.lean ====
section
/-! SUPPORT. What the operations on the hide table leave of the tracker's own registers (row index, pass, the arrivals that wait for
its end), and what every operation leaves of the row queue. -/

namespace Sys2Proof.Machine

set_option linter.unusedTactic false
set_option linter.unnecessarySeqFocus false
set_option linter.unreachableTactic false

variable (p : Part)

/-! ### rowIndex -/

@[simp] theorem Part.setHide_rowIndex (o : Owner) (h : Option Hide) : (p.setHide o h).tracker.rowIndex = p.tracker.rowIndex := by unfold Part.setHide; split <;> rfl
@[simp] theorem Part.modifyHide_rowIndex (o : Owner) (f : Hide → Hide) : (p.modifyHide o f).tracker.rowIndex = p.tracker.rowIndex := by unfold Part.modifyHide; simp
@[simp] theorem Part.breach_rowIndex (h : Nat) : (p.breach h).tracker.rowIndex = p.tracker.rowIndex := by unfold Part.breach; (try dsimp only); (repeat' split) <;> simp
@[simp] theorem Part.holeLimit_rowIndex (e : Nat) : (p.holeLimit e).tracker.rowIndex = p.tracker.rowIndex := by unfold Part.holeLimit; (try dsimp only); (repeat' split) <;> simp
@[simp] theorem Part.holeBirth_rowIndex (g : Gap) : (p.holeBirth g).tracker.rowIndex = p.tracker.rowIndex := by unfold Part.holeBirth; (try dsimp only); (repeat' split) <;> simp
@[simp] theorem Part.breachOver_rowIndex (g : Gap) : (p.breachOver g).tracker.rowIndex = p.tracker.rowIndex := by
  unfold Part.breachOver
  exact foldl_keep (f := fun q : Part => q.tracker.rowIndex) (by simp) _ _
@[simp] theorem Part.classifyGap_rowIndex (g : Gap) : (p.classifyGap g).tracker.rowIndex = p.tracker.rowIndex := by unfold Part.classifyGap; (try dsimp only); (repeat' split) <;> simp
@[simp] theorem Part.checkHole_rowIndex (h : Nat) : (p.checkHole h).tracker.rowIndex = p.tracker.rowIndex := by unfold Part.checkHole; (try dsimp only); (repeat' split) <;> simp
@[simp] theorem Part.checkHoles_rowIndex : (p.checkHoles).tracker.rowIndex = p.tracker.rowIndex := by
  unfold Part.checkHoles
  exact foldl_keep (f := fun q : Part => q.tracker.rowIndex) (by simp) _ _
@[simp] theorem Part.breachOwned_rowIndex (o : Owner) : (p.breachOwned o).tracker.rowIndex = p.tracker.rowIndex := by
  cases o with
  | spill => rfl
  | entry e => unfold Part.breachOwned; exact foldl_keep (f := fun q : Part => q.tracker.rowIndex) (by simp) _ _
@[simp] theorem Part.absorbOwner_rowIndex (b : Nat) (a : Owner) : (p.absorbOwner b a).tracker.rowIndex = p.tracker.rowIndex := by unfold Part.absorbOwner; split <;> (try dsimp only) <;> (try cases a) <;> simp
@[simp] theorem Part.drawNumber_rowIndex : (p.drawNumber).2.tracker.rowIndex = p.tracker.rowIndex := rfl
@[simp] theorem Part.birthAt_rowIndex (o : Owner) (g : SegPlan) : (p.birthAt o g).tracker.rowIndex = p.tracker.rowIndex := by unfold Part.birthAt; simp
@[simp] theorem Part.birth_rowIndex (g : SegPlan) : (p.birth g).2.tracker.rowIndex = p.tracker.rowIndex := by unfold Part.birth; (try dsimp only); (repeat' split) <;> simp
@[simp] theorem Part.mergeOwners_rowIndex (os : List Owner) : (p.mergeOwners os).2.tracker.rowIndex = p.tracker.rowIndex := by
  unfold Part.mergeOwners
  split
  · rfl
  · split
    · rfl
    · dsimp only
      split
      · rw [Part.absorbOwner_rowIndex]; exact foldl_keep (f := fun q : Part => q.tracker.rowIndex) (by simp) _ _
      · exact foldl_keep (f := fun q : Part => q.tracker.rowIndex) (by simp) _ _
@[simp] theorem Part.flagFragment_rowIndex (o : Owner) : (p.flagFragment o).tracker.rowIndex = p.tracker.rowIndex := by unfold Part.flagFragment; (try dsimp only); (repeat' split) <;> simp
@[simp] theorem Part.ownSegment_rowIndex (g : SegPlan) : (p.ownSegment g).tracker.rowIndex = p.tracker.rowIndex := by unfold Part.ownSegment; dsimp only; split <;> split <;> simp
@[simp] theorem Part.accumulate_rowIndex (r : CondRow) : (p.accumulate r).tracker.rowIndex = p.tracker.rowIndex := by
  unfold Part.accumulate
  dsimp only
  rw [foldl_keep (f := fun q : Part => q.tracker.rowIndex) (by simp), foldl_keep (f := fun q : Part => q.tracker.rowIndex) (by simp)]
@[simp] theorem Part.closeHide_rowIndex (c : CloseCause) (o : Owner) : (p.closeHide c o).tracker.rowIndex = p.tracker.rowIndex := by unfold Part.closeHide; (try dsimp only); (repeat' split) <;> simp
@[simp] theorem Part.closeAll_rowIndex (c : CloseCause) (os : List Owner) : (p.closeAll c os).tracker.rowIndex = p.tracker.rowIndex := by
  unfold Part.closeAll
  exact foldl_keep (f := fun q : Part => q.tracker.rowIndex) (by simp) _ _
@[simp] theorem Part.searchSites_rowIndex (hs : List Nat) (ss : List Seg) (done : List Nat) : (p.searchSites hs ss done).tracker.rowIndex = p.tracker.rowIndex := by
  induction ss generalizing p done with
  | nil => rfl
  | cons s ss ih => unfold Part.searchSites; (repeat' split) <;> simp [ih]
@[simp] theorem Part.siteStage_rowIndex (r : CondRow) : (p.siteStage r).tracker.rowIndex = p.tracker.rowIndex := by unfold Part.siteStage; (try dsimp only); (repeat' split) <;> simp
@[simp] theorem Part.emptyLists_rowIndex : (p.emptyLists).tracker.rowIndex = p.tracker.rowIndex := rfl
@[simp] theorem Part.truncated_rowIndex : (p.truncated).tracker.rowIndex = p.tracker.rowIndex := rfl
@[simp] theorem Part.takeRestart_rowIndex : (p.takeRestart).tracker.rowIndex = p.tracker.rowIndex := by unfold Part.takeRestart; simp
@[simp] theorem Part.takeRestarts_rowIndex (n : Nat) : (p.takeRestarts n).tracker.rowIndex = p.tracker.rowIndex := by
  induction n generalizing p with
  | zero => rfl
  | succ n ih => unfold Part.takeRestarts; simp [ih]
@[simp] theorem Part.takeNotice_rowIndex : (p.takeNotice).tracker.rowIndex = p.tracker.rowIndex := rfl
@[simp] theorem Part.takeWaitingNotice_rowIndex : (p.takeWaitingNotice).tracker.rowIndex = p.tracker.rowIndex := by unfold Part.takeWaitingNotice; (try dsimp only); (repeat' split) <;> simp
@[simp] theorem Part.passEnd_rowIndex : (p.passEnd).tracker.rowIndex = p.tracker.rowIndex := by unfold Part.passEnd; dsimp only; (repeat' split) <;> simp
@[simp] theorem Part.exchangeLists_rowIndex : (p.exchangeLists).tracker.rowIndex = p.tracker.rowIndex := by unfold Part.exchangeLists; simp
@[simp] theorem Part.atStage_rowIndex (r : CondRow) (st : PassStage) : (p.atStage r st).tracker.rowIndex = p.tracker.rowIndex := rfl
@[simp] theorem Part.checkedStage_rowIndex (r : CondRow) : (p.checkedStage r).tracker.rowIndex = p.tracker.rowIndex := by unfold Part.checkedStage; simp
@[simp] theorem Part.accumulatedStage_rowIndex (r : CondRow) : (p.accumulatedStage r).tracker.rowIndex = p.tracker.rowIndex := by unfold Part.accumulatedStage; simp
@[simp] theorem Part.passUnit_rowIndex : (p.passUnit).tracker.rowIndex = p.tracker.rowIndex := by unfold Part.passUnit; (repeat' split) <;> simp
@[simp] theorem Part.passUnits_rowIndex (n : Nat) : (p.passUnits n).tracker.rowIndex = p.tracker.rowIndex := by
  induction n generalizing p with
  | zero => rfl
  | succ n ih => unfold Part.passUnits; simp [ih]

/-! ### pass -/

@[simp] theorem Part.setHide_pass (o : Owner) (h : Option Hide) : (p.setHide o h).tracker.pass = p.tracker.pass := by unfold Part.setHide; split <;> rfl
@[simp] theorem Part.modifyHide_pass (o : Owner) (f : Hide → Hide) : (p.modifyHide o f).tracker.pass = p.tracker.pass := by unfold Part.modifyHide; simp
@[simp] theorem Part.breach_pass (h : Nat) : (p.breach h).tracker.pass = p.tracker.pass := by unfold Part.breach; (try dsimp only); (repeat' split) <;> simp
@[simp] theorem Part.holeLimit_pass (e : Nat) : (p.holeLimit e).tracker.pass = p.tracker.pass := by unfold Part.holeLimit; (try dsimp only); (repeat' split) <;> simp
@[simp] theorem Part.holeBirth_pass (g : Gap) : (p.holeBirth g).tracker.pass = p.tracker.pass := by unfold Part.holeBirth; (try dsimp only); (repeat' split) <;> simp
@[simp] theorem Part.breachOver_pass (g : Gap) : (p.breachOver g).tracker.pass = p.tracker.pass := by
  unfold Part.breachOver
  exact foldl_keep (f := fun q : Part => q.tracker.pass) (by simp) _ _
@[simp] theorem Part.classifyGap_pass (g : Gap) : (p.classifyGap g).tracker.pass = p.tracker.pass := by unfold Part.classifyGap; (try dsimp only); (repeat' split) <;> simp
@[simp] theorem Part.checkHole_pass (h : Nat) : (p.checkHole h).tracker.pass = p.tracker.pass := by unfold Part.checkHole; (try dsimp only); (repeat' split) <;> simp
@[simp] theorem Part.checkHoles_pass : (p.checkHoles).tracker.pass = p.tracker.pass := by
  unfold Part.checkHoles
  exact foldl_keep (f := fun q : Part => q.tracker.pass) (by simp) _ _
@[simp] theorem Part.breachOwned_pass (o : Owner) : (p.breachOwned o).tracker.pass = p.tracker.pass := by
  cases o with
  | spill => rfl
  | entry e => unfold Part.breachOwned; exact foldl_keep (f := fun q : Part => q.tracker.pass) (by simp) _ _
@[simp] theorem Part.absorbOwner_pass (b : Nat) (a : Owner) : (p.absorbOwner b a).tracker.pass = p.tracker.pass := by unfold Part.absorbOwner; split <;> (try dsimp only) <;> (try cases a) <;> simp
@[simp] theorem Part.drawNumber_pass : (p.drawNumber).2.tracker.pass = p.tracker.pass := rfl
@[simp] theorem Part.birthAt_pass (o : Owner) (g : SegPlan) : (p.birthAt o g).tracker.pass = p.tracker.pass := by unfold Part.birthAt; simp
@[simp] theorem Part.birth_pass (g : SegPlan) : (p.birth g).2.tracker.pass = p.tracker.pass := by unfold Part.birth; (try dsimp only); (repeat' split) <;> simp
@[simp] theorem Part.mergeOwners_pass (os : List Owner) : (p.mergeOwners os).2.tracker.pass = p.tracker.pass := by
  unfold Part.mergeOwners
  split
  · rfl
  · split
    · rfl
    · dsimp only
      split
      · rw [Part.absorbOwner_pass]; exact foldl_keep (f := fun q : Part => q.tracker.pass) (by simp) _ _
      · exact foldl_keep (f := fun q : Part => q.tracker.pass) (by simp) _ _
@[simp] theorem Part.flagFragment_pass (o : Owner) : (p.flagFragment o).tracker.pass = p.tracker.pass := by unfold Part.flagFragment; (try dsimp only); (repeat' split) <;> simp
@[simp] theorem Part.ownSegment_pass (g : SegPlan) : (p.ownSegment g).tracker.pass = p.tracker.pass := by unfold Part.ownSegment; dsimp only; split <;> split <;> simp
@[simp] theorem Part.accumulate_pass (r : CondRow) : (p.accumulate r).tracker.pass = p.tracker.pass := by
  unfold Part.accumulate
  dsimp only
  rw [foldl_keep (f := fun q : Part => q.tracker.pass) (by simp), foldl_keep (f := fun q : Part => q.tracker.pass) (by simp)]
@[simp] theorem Part.closeHide_pass (c : CloseCause) (o : Owner) : (p.closeHide c o).tracker.pass = p.tracker.pass := by unfold Part.closeHide; (try dsimp only); (repeat' split) <;> simp
@[simp] theorem Part.closeAll_pass (c : CloseCause) (os : List Owner) : (p.closeAll c os).tracker.pass = p.tracker.pass := by
  unfold Part.closeAll
  exact foldl_keep (f := fun q : Part => q.tracker.pass) (by simp) _ _
@[simp] theorem Part.searchSites_pass (hs : List Nat) (ss : List Seg) (done : List Nat) : (p.searchSites hs ss done).tracker.pass = p.tracker.pass := by
  induction ss generalizing p done with
  | nil => rfl
  | cons s ss ih => unfold Part.searchSites; (repeat' split) <;> simp [ih]
@[simp] theorem Part.siteStage_pass (r : CondRow) : (p.siteStage r).tracker.pass = p.tracker.pass := by unfold Part.siteStage; (try dsimp only); (repeat' split) <;> simp
@[simp] theorem Part.emptyLists_pass : (p.emptyLists).tracker.pass = p.tracker.pass := rfl
@[simp] theorem Part.truncated_pass : (p.truncated).tracker.pass = p.tracker.pass := rfl
@[simp] theorem Part.takeRestart_pass : (p.takeRestart).tracker.pass = p.tracker.pass := by unfold Part.takeRestart; simp
@[simp] theorem Part.takeRestarts_pass (n : Nat) : (p.takeRestarts n).tracker.pass = p.tracker.pass := by
  induction n generalizing p with
  | zero => rfl
  | succ n ih => unfold Part.takeRestarts; simp [ih]
@[simp] theorem Part.takeNotice_pass : (p.takeNotice).tracker.pass = p.tracker.pass := rfl
@[simp] theorem Part.takeWaitingNotice_pass : (p.takeWaitingNotice).tracker.pass = p.tracker.pass := by unfold Part.takeWaitingNotice; (try dsimp only); (repeat' split) <;> simp
@[simp] theorem Part.passEnd_pass : (p.passEnd).tracker.pass = p.tracker.pass := by unfold Part.passEnd; dsimp only; (repeat' split) <;> simp

/-! ### restartsWaiting -/

@[simp] theorem Part.setHide_restartsWaiting (o : Owner) (h : Option Hide) : (p.setHide o h).tracker.restartsWaiting = p.tracker.restartsWaiting := by unfold Part.setHide; split <;> rfl
@[simp] theorem Part.modifyHide_restartsWaiting (o : Owner) (f : Hide → Hide) : (p.modifyHide o f).tracker.restartsWaiting = p.tracker.restartsWaiting := by unfold Part.modifyHide; simp
@[simp] theorem Part.breach_restartsWaiting (h : Nat) : (p.breach h).tracker.restartsWaiting = p.tracker.restartsWaiting := by unfold Part.breach; (try dsimp only); (repeat' split) <;> simp
@[simp] theorem Part.holeLimit_restartsWaiting (e : Nat) : (p.holeLimit e).tracker.restartsWaiting = p.tracker.restartsWaiting := by unfold Part.holeLimit; (try dsimp only); (repeat' split) <;> simp
@[simp] theorem Part.holeBirth_restartsWaiting (g : Gap) : (p.holeBirth g).tracker.restartsWaiting = p.tracker.restartsWaiting := by unfold Part.holeBirth; (try dsimp only); (repeat' split) <;> simp
@[simp] theorem Part.breachOver_restartsWaiting (g : Gap) : (p.breachOver g).tracker.restartsWaiting = p.tracker.restartsWaiting := by
  unfold Part.breachOver
  exact foldl_keep (f := fun q : Part => q.tracker.restartsWaiting) (by simp) _ _
@[simp] theorem Part.classifyGap_restartsWaiting (g : Gap) : (p.classifyGap g).tracker.restartsWaiting = p.tracker.restartsWaiting := by unfold Part.classifyGap; (try dsimp only); (repeat' split) <;> simp
@[simp] theorem Part.checkHole_restartsWaiting (h : Nat) : (p.checkHole h).tracker.restartsWaiting = p.tracker.restartsWaiting := by unfold Part.checkHole; (try dsimp only); (repeat' split) <;> simp
@[simp] theorem Part.checkHoles_restartsWaiting : (p.checkHoles).tracker.restartsWaiting = p.tracker.restartsWaiting := by
  unfold Part.checkHoles
  exact foldl_keep (f := fun q : Part => q.tracker.restartsWaiting) (by simp) _ _
@[simp] theorem Part.breachOwned_restartsWaiting (o : Owner) : (p.breachOwned o).tracker.restartsWaiting = p.tracker.restartsWaiting := by
  cases o with
  | spill => rfl
  | entry e => unfold Part.breachOwned; exact foldl_keep (f := fun q : Part => q.tracker.restartsWaiting) (by simp) _ _
@[simp] theorem Part.absorbOwner_restartsWaiting (b : Nat) (a : Owner) : (p.absorbOwner b a).tracker.restartsWaiting = p.tracker.restartsWaiting := by unfold Part.absorbOwner; split <;> (try dsimp only) <;> (try cases a) <;> simp
@[simp] theorem Part.drawNumber_restartsWaiting : (p.drawNumber).2.tracker.restartsWaiting = p.tracker.restartsWaiting := rfl
@[simp] theorem Part.birthAt_restartsWaiting (o : Owner) (g : SegPlan) : (p.birthAt o g).tracker.restartsWaiting = p.tracker.restartsWaiting := by unfold Part.birthAt; simp
@[simp] theorem Part.birth_restartsWaiting (g : SegPlan) : (p.birth g).2.tracker.restartsWaiting = p.tracker.restartsWaiting := by unfold Part.birth; (try dsimp only); (repeat' split) <;> simp
@[simp] theorem Part.mergeOwners_restartsWaiting (os : List Owner) : (p.mergeOwners os).2.tracker.restartsWaiting = p.tracker.restartsWaiting := by
  unfold Part.mergeOwners
  split
  · rfl
  · split
    · rfl
    · dsimp only
      split
      · rw [Part.absorbOwner_restartsWaiting]; exact foldl_keep (f := fun q : Part => q.tracker.restartsWaiting) (by simp) _ _
      · exact foldl_keep (f := fun q : Part => q.tracker.restartsWaiting) (by simp) _ _
@[simp] theorem Part.flagFragment_restartsWaiting (o : Owner) : (p.flagFragment o).tracker.restartsWaiting = p.tracker.restartsWaiting := by unfold Part.flagFragment; (try dsimp only); (repeat' split) <;> simp
@[simp] theorem Part.ownSegment_restartsWaiting (g : SegPlan) : (p.ownSegment g).tracker.restartsWaiting = p.tracker.restartsWaiting := by unfold Part.ownSegment; dsimp only; split <;> split <;> simp
@[simp] theorem Part.accumulate_restartsWaiting (r : CondRow) : (p.accumulate r).tracker.restartsWaiting = p.tracker.restartsWaiting := by
  unfold Part.accumulate
  dsimp only
  rw [foldl_keep (f := fun q : Part => q.tracker.restartsWaiting) (by simp), foldl_keep (f := fun q : Part => q.tracker.restartsWaiting) (by simp)]
@[simp] theorem Part.closeHide_restartsWaiting (c : CloseCause) (o : Owner) : (p.closeHide c o).tracker.restartsWaiting = p.tracker.restartsWaiting := by unfold Part.closeHide; (try dsimp only); (repeat' split) <;> simp
@[simp] theorem Part.closeAll_restartsWaiting (c : CloseCause) (os : List Owner) : (p.closeAll c os).tracker.restartsWaiting = p.tracker.restartsWaiting := by
  unfold Part.closeAll
  exact foldl_keep (f := fun q : Part => q.tracker.restartsWaiting) (by simp) _ _
@[simp] theorem Part.searchSites_restartsWaiting (hs : List Nat) (ss : List Seg) (done : List Nat) : (p.searchSites hs ss done).tracker.restartsWaiting = p.tracker.restartsWaiting := by
  induction ss generalizing p done with
  | nil => rfl
  | cons s ss ih => unfold Part.searchSites; (repeat' split) <;> simp [ih]
@[simp] theorem Part.siteStage_restartsWaiting (r : CondRow) : (p.siteStage r).tracker.restartsWaiting = p.tracker.restartsWaiting := by unfold Part.siteStage; (try dsimp only); (repeat' split) <;> simp
@[simp] theorem Part.emptyLists_restartsWaiting : (p.emptyLists).tracker.restartsWaiting = p.tracker.restartsWaiting := rfl
@[simp] theorem Part.truncated_restartsWaiting : (p.truncated).tracker.restartsWaiting = p.tracker.restartsWaiting := rfl
@[simp] theorem Part.takeRestart_restartsWaiting : (p.takeRestart).tracker.restartsWaiting = p.tracker.restartsWaiting := by unfold Part.takeRestart; simp
@[simp] theorem Part.takeRestarts_restartsWaiting (n : Nat) : (p.takeRestarts n).tracker.restartsWaiting = p.tracker.restartsWaiting := by
  induction n generalizing p with
  | zero => rfl
  | succ n ih => unfold Part.takeRestarts; simp [ih]
@[simp] theorem Part.takeNotice_restartsWaiting : (p.takeNotice).tracker.restartsWaiting = p.tracker.restartsWaiting := rfl
@[simp] theorem Part.takeWaitingNotice_restartsWaiting : (p.takeWaitingNotice).tracker.restartsWaiting = p.tracker.restartsWaiting := by unfold Part.takeWaitingNotice; (try dsimp only); (repeat' split) <;> simp

/-! ### noticeWaiting -/

@[simp] theorem Part.setHide_noticeWaiting (o : Owner) (h : Option Hide) : (p.setHide o h).tracker.noticeWaiting = p.tracker.noticeWaiting := by unfold Part.setHide; split <;> rfl
@[simp] theorem Part.modifyHide_noticeWaiting (o : Owner) (f : Hide → Hide) : (p.modifyHide o f).tracker.noticeWaiting = p.tracker.noticeWaiting := by unfold Part.modifyHide; simp
@[simp] theorem Part.breach_noticeWaiting (h : Nat) : (p.breach h).tracker.noticeWaiting = p.tracker.noticeWaiting := by unfold Part.breach; (try dsimp only); (repeat' split) <;> simp
@[simp] theorem Part.holeLimit_noticeWaiting (e : Nat) : (p.holeLimit e).tracker.noticeWaiting = p.tracker.noticeWaiting := by unfold Part.holeLimit; (try dsimp only); (repeat' split) <;> simp
@[simp] theorem Part.holeBirth_noticeWaiting (g : Gap) : (p.holeBirth g).tracker.noticeWaiting = p.tracker.noticeWaiting := by unfold Part.holeBirth; (try dsimp only); (repeat' split) <;> simp
@[simp] theorem Part.breachOver_noticeWaiting (g : Gap) : (p.breachOver g).tracker.noticeWaiting = p.tracker.noticeWaiting := by
  unfold Part.breachOver
  exact foldl_keep (f := fun q : Part => q.tracker.noticeWaiting) (by simp) _ _
@[simp] theorem Part.classifyGap_noticeWaiting (g : Gap) : (p.classifyGap g).tracker.noticeWaiting = p.tracker.noticeWaiting := by unfold Part.classifyGap; (try dsimp only); (repeat' split) <;> simp
@[simp] theorem Part.checkHole_noticeWaiting (h : Nat) : (p.checkHole h).tracker.noticeWaiting = p.tracker.noticeWaiting := by unfold Part.checkHole; (try dsimp only); (repeat' split) <;> simp
@[simp] theorem Part.checkHoles_noticeWaiting : (p.checkHoles).tracker.noticeWaiting = p.tracker.noticeWaiting := by
  unfold Part.checkHoles
  exact foldl_keep (f := fun q : Part => q.tracker.noticeWaiting) (by simp) _ _
@[simp] theorem Part.breachOwned_noticeWaiting (o : Owner) : (p.breachOwned o).tracker.noticeWaiting = p.tracker.noticeWaiting := by
  cases o with
  | spill => rfl
  | entry e => unfold Part.breachOwned; exact foldl_keep (f := fun q : Part => q.tracker.noticeWaiting) (by simp) _ _
@[simp] theorem Part.absorbOwner_noticeWaiting (b : Nat) (a : Owner) : (p.absorbOwner b a).tracker.noticeWaiting = p.tracker.noticeWaiting := by unfold Part.absorbOwner; split <;> (try dsimp only) <;> (try cases a) <;> simp
@[simp] theorem Part.drawNumber_noticeWaiting : (p.drawNumber).2.tracker.noticeWaiting = p.tracker.noticeWaiting := rfl
@[simp] theorem Part.birthAt_noticeWaiting (o : Owner) (g : SegPlan) : (p.birthAt o g).tracker.noticeWaiting = p.tracker.noticeWaiting := by unfold Part.birthAt; simp
@[simp] theorem Part.birth_noticeWaiting (g : SegPlan) : (p.birth g).2.tracker.noticeWaiting = p.tracker.noticeWaiting := by unfold Part.birth; (try dsimp only); (repeat' split) <;> simp
@[simp] theorem Part.mergeOwners_noticeWaiting (os : List Owner) : (p.mergeOwners os).2.tracker.noticeWaiting = p.tracker.noticeWaiting := by
  unfold Part.mergeOwners
  split
  · rfl
  · split
    · rfl
    · dsimp only
      split
      · rw [Part.absorbOwner_noticeWaiting]; exact foldl_keep (f := fun q : Part => q.tracker.noticeWaiting) (by simp) _ _
      · exact foldl_keep (f := fun q : Part => q.tracker.noticeWaiting) (by simp) _ _
@[simp] theorem Part.flagFragment_noticeWaiting (o : Owner) : (p.flagFragment o).tracker.noticeWaiting = p.tracker.noticeWaiting := by unfold Part.flagFragment; (try dsimp only); (repeat' split) <;> simp
@[simp] theorem Part.ownSegment_noticeWaiting (g : SegPlan) : (p.ownSegment g).tracker.noticeWaiting = p.tracker.noticeWaiting := by unfold Part.ownSegment; dsimp only; split <;> split <;> simp
@[simp] theorem Part.accumulate_noticeWaiting (r : CondRow) : (p.accumulate r).tracker.noticeWaiting = p.tracker.noticeWaiting := by
  unfold Part.accumulate
  dsimp only
  rw [foldl_keep (f := fun q : Part => q.tracker.noticeWaiting) (by simp), foldl_keep (f := fun q : Part => q.tracker.noticeWaiting) (by simp)]
@[simp] theorem Part.closeHide_noticeWaiting (c : CloseCause) (o : Owner) : (p.closeHide c o).tracker.noticeWaiting = p.tracker.noticeWaiting := by unfold Part.closeHide; (try dsimp only); (repeat' split) <;> simp
@[simp] theorem Part.closeAll_noticeWaiting (c : CloseCause) (os : List Owner) : (p.closeAll c os).tracker.noticeWaiting = p.tracker.noticeWaiting := by
  unfold Part.closeAll
  exact foldl_keep (f := fun q : Part => q.tracker.noticeWaiting) (by simp) _ _
@[simp] theorem Part.searchSites_noticeWaiting (hs : List Nat) (ss : List Seg) (done : List Nat) : (p.searchSites hs ss done).tracker.noticeWaiting = p.tracker.noticeWaiting := by
  induction ss generalizing p done with
  | nil => rfl
  | cons s ss ih => unfold Part.searchSites; (repeat' split) <;> simp [ih]
@[simp] theorem Part.siteStage_noticeWaiting (r : CondRow) : (p.siteStage r).tracker.noticeWaiting = p.tracker.noticeWaiting := by unfold Part.siteStage; (try dsimp only); (repeat' split) <;> simp
@[simp] theorem Part.emptyLists_noticeWaiting : (p.emptyLists).tracker.noticeWaiting = p.tracker.noticeWaiting := rfl
@[simp] theorem Part.truncated_noticeWaiting : (p.truncated).tracker.noticeWaiting = p.tracker.noticeWaiting := rfl
@[simp] theorem Part.takeRestart_noticeWaiting : (p.takeRestart).tracker.noticeWaiting = p.tracker.noticeWaiting := by unfold Part.takeRestart; simp
@[simp] theorem Part.takeRestarts_noticeWaiting (n : Nat) : (p.takeRestarts n).tracker.noticeWaiting = p.tracker.noticeWaiting := by
  induction n generalizing p with
  | zero => rfl
  | succ n ih => unfold Part.takeRestarts; simp [ih]

theorem Part.exchangeLists_pass : p.exchangeLists.tracker.pass = none := by unfold Part.exchangeLists; simp

/-! ### The row queue -/

/-- A guarded set applies only with the row queue empty, so a reconfiguration takes no row out of it (R20, R180). -/
@[simp] theorem Part.applySnapshotIfQuiet_queue : p.applySnapshotIfQuiet.intake.queue = p.intake.queue := by
  unfold Part.applySnapshotIfQuiet
  split
  · rfl
  · split
    · next hq =>
      have he : p.intake.queue = [] := by
        unfold Part.setupQuiet at hq
        simp only [Bool.and_eq_true, List.isEmpty_iff] at hq
        exact hq.2
      rw [Part.setSnapshot_intake, Part.raise_intake]
      unfold Part.applyGuarded Part.reconfigureRowRing Part.clearAutoMask Part.flagCalChanged
      dsimp only
      split <;> split <;> simp [he]
    · rfl

@[simp] theorem Part.finishJob_queue (j : Job) (o : StampOutcome) : (p.finishJob j o).intake.queue = p.intake.queue := by unfold Part.finishJob; simp
@[simp] theorem Part.finishCurrent_queue (o : StampOutcome) : (p.finishCurrent o).intake.queue = p.intake.queue := by unfold Part.finishCurrent; (try dsimp only); (repeat' split) <;> simp
@[simp] theorem Part.missWaiting_queue (r : MissReason) (js : List Job) : (p.missWaiting r js).intake.queue = p.intake.queue := by
  induction js generalizing p with
  | nil => rfl
  | cons j js ih => unfold Part.missWaiting; simp [ih]
@[simp] theorem Part.missAll_queue (r : MissReason) : (p.missAll r).intake.queue = p.intake.queue := by unfold Part.missAll; simp
@[simp] theorem Part.missPassed_queue (kept js : List Job) : (p.missPassed kept js).intake.queue = p.intake.queue := by
  induction js generalizing p kept with
  | nil => rfl
  | cons j js ih => unfold Part.missPassed; split <;> simp [ih]
@[simp] theorem Part.settleCurrent_queue : (p.settleCurrent).intake.queue = p.intake.queue := by unfold Part.settleCurrent; (try dsimp only); (repeat' split) <;> simp
@[simp] theorem Part.settleIncrement_queue : (p.settleIncrement).intake.queue = p.intake.queue := by unfold Part.settleIncrement; simp
@[simp] theorem Part.restartCurrent_queue : (p.restartCurrent).intake.queue = p.intake.queue := by unfold Part.restartCurrent; (try dsimp only); (repeat' split) <;> simp
@[simp] theorem Part.schedulerRestart_queue : (p.schedulerRestart).intake.queue = p.intake.queue := by unfold Part.schedulerRestart; simp
@[simp] theorem Part.quietTests_queue : (p.quietTests).intake.queue = p.intake.queue := by unfold Part.quietTests; simp
@[simp] theorem Part.takeRestart_queue : (p.takeRestart).intake.queue = p.intake.queue := by unfold Part.takeRestart; simp
@[simp] theorem Part.takeRestarts_queue (n : Nat) : (p.takeRestarts n).intake.queue = p.intake.queue := by
  induction n generalizing p with
  | zero => rfl
  | succ n ih => unfold Part.takeRestarts; simp [ih]
@[simp] theorem Part.passEnd_queue : (p.passEnd).intake.queue = p.intake.queue := by unfold Part.passEnd; dsimp only; (repeat' split) <;> simp
@[simp] theorem Part.exchangeLists_queue : (p.exchangeLists).intake.queue = p.intake.queue := by unfold Part.exchangeLists; simp
@[simp] theorem Part.passUnit_queue : (p.passUnit).intake.queue = p.intake.queue := by unfold Part.passUnit; (repeat' split) <;> simp
@[simp] theorem Part.passUnits_queue (n : Nat) : (p.passUnits n).intake.queue = p.intake.queue := by
  induction n generalizing p with
  | zero => rfl
  | succ n ih => unfold Part.passUnits; simp [ih]

/-! ### The stages run one after another -/

variable {p}

@[simp] theorem finishSites_rowIndex (r : CondRow) : (finishSites r p).tracker.rowIndex = p.tracker.rowIndex := by
  unfold finishSites finishExchange; simp

@[simp] theorem finishClosing_rowIndex (r : CondRow) (os : List Owner) : (finishClosing r os p).tracker.rowIndex = p.tracker.rowIndex := by
  induction os generalizing p with
  | nil => unfold finishClosing; simp
  | cons o os ih => unfold finishClosing; simp [ih]

@[simp] theorem finishChecking_rowIndex (r : CondRow) : (finishChecking r p).tracker.rowIndex = p.tracker.rowIndex := by
  unfold finishChecking; simp

@[simp] theorem finishGaps_rowIndex (r : CondRow) (gs : List Gap) : (finishGaps r gs p).tracker.rowIndex = p.tracker.rowIndex := by
  induction gs generalizing p with
  | nil => unfold finishGaps; simp
  | cons g gs ih => unfold finishGaps; simp [ih]

@[simp] theorem finishAccumulation_rowIndex (r : CondRow) : (finishAccumulation r p).tracker.rowIndex = p.tracker.rowIndex := by
  unfold finishAccumulation; simp

@[simp] theorem finishOwnership_rowIndex (r : CondRow) (gs : List SegPlan) : (finishOwnership r gs p).tracker.rowIndex = p.tracker.rowIndex := by
  induction gs generalizing p with
  | nil => unfold finishOwnership; simp
  | cons g gs ih => unfold finishOwnership; simp [ih]

@[simp] theorem finishSegmentation_rowIndex (r : CondRow) : (finishSegmentation r p).tracker.rowIndex = p.tracker.rowIndex := by
  unfold finishSegmentation; simp

@[simp] theorem finishTruncating_rowIndex (r : CondRow) (os : List Owner) : (finishTruncating r os p).tracker.rowIndex = p.tracker.rowIndex := by
  induction os generalizing p with
  | nil => unfold finishTruncating; simp
  | cons o os ih => unfold finishTruncating; simp [ih]

@[simp] theorem Part.finishPass_rowIndex : p.finishPass.tracker.rowIndex = p.tracker.rowIndex := by
  unfold Part.finishPass
  (repeat' split) <;> simp [finishExchange]

@[simp] theorem finishSites_queue (r : CondRow) : (finishSites r p).intake.queue = p.intake.queue := by
  unfold finishSites finishExchange; simp

@[simp] theorem finishClosing_queue (r : CondRow) (os : List Owner) : (finishClosing r os p).intake.queue = p.intake.queue := by
  induction os generalizing p with
  | nil => unfold finishClosing; simp
  | cons o os ih => unfold finishClosing; simp [ih]

@[simp] theorem finishChecking_queue (r : CondRow) : (finishChecking r p).intake.queue = p.intake.queue := by
  unfold finishChecking; simp

@[simp] theorem finishGaps_queue (r : CondRow) (gs : List Gap) : (finishGaps r gs p).intake.queue = p.intake.queue := by
  induction gs generalizing p with
  | nil => unfold finishGaps; simp
  | cons g gs ih => unfold finishGaps; simp [ih]

@[simp] theorem finishAccumulation_queue (r : CondRow) : (finishAccumulation r p).intake.queue = p.intake.queue := by
  unfold finishAccumulation; simp

@[simp] theorem finishOwnership_queue (r : CondRow) (gs : List SegPlan) : (finishOwnership r gs p).intake.queue = p.intake.queue := by
  induction gs generalizing p with
  | nil => unfold finishOwnership; simp
  | cons g gs ih => unfold finishOwnership; simp [ih]

@[simp] theorem finishSegmentation_queue (r : CondRow) : (finishSegmentation r p).intake.queue = p.intake.queue := by
  unfold finishSegmentation; simp

@[simp] theorem finishTruncating_queue (r : CondRow) (os : List Owner) : (finishTruncating r os p).intake.queue = p.intake.queue := by
  induction os generalizing p with
  | nil => unfold finishTruncating; simp
  | cons o os ih => unfold finishTruncating; simp [ih]

@[simp] theorem Part.finishPass_queue : p.finishPass.intake.queue = p.intake.queue := by
  unfold Part.finishPass
  (repeat' split) <;> simp [finishExchange]

@[simp] theorem finishSites_belt (r : CondRow) : (finishSites r p).belt = p.belt := by
  unfold finishSites finishExchange; simp

@[simp] theorem finishClosing_belt (r : CondRow) (os : List Owner) : (finishClosing r os p).belt = p.belt := by
  induction os generalizing p with
  | nil => unfold finishClosing; simp
  | cons o os ih => unfold finishClosing; simp [ih]

@[simp] theorem finishChecking_belt (r : CondRow) : (finishChecking r p).belt = p.belt := by
  unfold finishChecking; simp

@[simp] theorem finishGaps_belt (r : CondRow) (gs : List Gap) : (finishGaps r gs p).belt = p.belt := by
  induction gs generalizing p with
  | nil => unfold finishGaps; simp
  | cons g gs ih => unfold finishGaps; simp [ih]

@[simp] theorem finishAccumulation_belt (r : CondRow) : (finishAccumulation r p).belt = p.belt := by
  unfold finishAccumulation; simp

@[simp] theorem finishOwnership_belt (r : CondRow) (gs : List SegPlan) : (finishOwnership r gs p).belt = p.belt := by
  induction gs generalizing p with
  | nil => unfold finishOwnership; simp
  | cons g gs ih => unfold finishOwnership; simp [ih]

@[simp] theorem finishSegmentation_belt (r : CondRow) : (finishSegmentation r p).belt = p.belt := by
  unfold finishSegmentation; simp

@[simp] theorem finishTruncating_belt (r : CondRow) (os : List Owner) : (finishTruncating r os p).belt = p.belt := by
  induction os generalizing p with
  | nil => unfold finishTruncating; simp
  | cons o os ih => unfold finishTruncating; simp [ih]

@[simp] theorem Part.finishPass_belt : p.finishPass.belt = p.belt := by
  unfold Part.finishPass
  (repeat' split) <;> simp [finishExchange]

end Sys2Proof.Machine
end

