-- ==== Sys2Proof/Tests/Slice0.lean ====
section
/-! SUPPORT. Tests: ill-formed commands are refused, one step of each command on a small state, and for every statement with
hypotheses a state that meets them (test_meets_…, clause by clause at boundary values). -/

namespace Sys2Proof.Tests

open Sys2Proof.Machine

-- One theorem at a time: many kernel evaluations side by side can run the compiler out of threads.
set_option Elab.async false

/-! ### Small states -/

/-- The state after reset with this part. -/
def withPart (p : Part) : State := { State.reset with part := p }

/-- The answer is a next state with this property. -/
def answers (o : Host.Outcome State Fault Refusal) (f : State → Bool) : Bool :=
  match o with
  | .next t => f t
  | .fault _ | .refused _ => false

/-- The answer is a refusal. -/
def refuses (o : Host.Outcome State Fault Refusal) : Bool :=
  match o with
  | .refused _ => true
  | .next _ | .fault _ => false

/-- The part with a row ring of four slots at address 0. -/
def ringPart : Part := { Part.powerOn with setup.guarded.slotCount := 4, intake.syncPending := false }

/-- A complete buffer, all beams covered in all three sub-rows. -/
def fullBuffer (slot : BitVec 6) : Buffer := { slot := slot, words := List.replicate 36 { data := 0xFFFFFFFF, written := 0xF } }

/-- A conditioned row with this covered set and no mark. -/
def plainRow (c : Beams) : CondRow := { covered := c, noisy := 0, gap := false, trunc := false }

/-- The ring part with slot 0 complete and `n` rows queued. -/
def readyPart (n : Nat) : Part :=
  { ringPart with intake.buffers := [fullBuffer 0], intake.queue := List.replicate n (plainRow 0) }

/-- A hide that opened at row 1. -/
def hide (n lot : Half) (row : Word) : Hide :=
  { Hide.newborn n lot row { start := 10, stop := 20, united := false } with covered := 11 }

/-- A HIDE record's fields. -/
def info (n lot : Half) : HideInfo := Part.powerOn.manualInfo n 100 none |> fun i => { i with lot := lot, source := .belt }

/-- A job. -/
def job (n : Half) (strike : Word) (target : Nat) (st : JobState) : Job :=
  { info := info n 0, strikeRow := strike, target := target, symbols := { w1 := 10, w2 := 2, w3 := 5, w4 := 10 }, state := st }

/-- A transaction of one full beat. -/
def oneBeat (write : Bool) (addr : BitVec 24) (data : Word) : Transaction :=
  { write := write, start := addr, beats := [{ enables := 0xF, data := data }] }

/-- Settings with band 2 from 100 to 200, its stamp-enable ON, stamping ON. -/
def bandSettings : Unguarded :=
  { Unguarded.powerOn with
    stamping := true
    bands := (List.replicate 8 { low := 65535, high := 0, stamp := true }).set 2 { low := 100, high := 200, stamp := true } }

/-- A hide of 150 QFT with this site; its cells are at the power-on pitches. -/
def bigHide (site : Option Site) : Hide := { hide 1 0 1 with covered := 54432, site := site }

/-- The part with stamping ON, at row `row`, the head in this state. -/
def stampPart (row : Word) (st : HeadState) (u : Unguarded) : Part :=
  { Part.powerOn with tracker.rowIndex := row, head.state := st, setup.unguarded := u }

/-! ### Ill-formed commands are refused, the last well-formed ones are not -/

theorem test_refused_no_beats :
    refuses (exec (.upstreamTransaction (some { write := true, start := 0, beats := [] }) none) State.reset) = true := by
  decide +kernel

theorem test_refused_nine_beats :
    refuses (exec (.upstreamTransaction
      (some { write := false, start := 0, beats := List.replicate 9 { enables := 0xF, data := 0 } }) none) State.reset) = true := by
  decide +kernel

theorem test_refused_setup_word_80 : refuses (exec (.setupWordWrite 80 0xF 0) State.reset) = true := by decide +kernel

theorem test_refused_status_word_48 : refuses (exec (.statusBlockWrite 48) State.reset) = true := by decide +kernel

theorem test_refused_known_codes :
    refuses (exec (.unknownCommand 1 0) State.reset) = true ∧ refuses (exec (.unknownCommand 7 0) State.reset) = true := by
  decide +kernel

theorem test_wellFormed_bounds :
    Instr.wellFormed (.setupWordWrite 79 0 0) = true ∧ Instr.wellFormed (.setupWordWrite 80 0 0) = false ∧
    Instr.wellFormed (.statusBlockWrite 47) = true ∧ Instr.wellFormed (.statusBlockWrite 48) = false ∧
    Instr.wellFormed (.unknownCommand 0 0) = true ∧ Instr.wellFormed (.unknownCommand 8 0) = true ∧
    Instr.wellFormed (.upstreamTransaction (some { write := true, start := 0, beats := [] }) none) = false := by decide

/-- The table gives no row bits. -/
theorem test_no_word_decodes (nbits w : Nat) : decodeTableWord nbits w = none := rfl

/-! ### One step of a command -/

theorem test_powerOnReset_base :
    answers (exec (.powerOnReset 7) State.reset) (fun t => t.path.base == 0xFFF000) = true := by decide +kernel

/-- A beam word, a header without its other words: the row is dropped (R5). -/
theorem test_header_without_buffer :
    answers (exec (.headerWrite 2 0xF 0x00C60007) (withPart ringPart))
      (fun t => t.part.intake.dropped == 1 &&
        t.part.recorder.outgoing == [.event .rowIncomplete 0 2] && t.part.intake.expected == 0) = true := by decide +kernel

/-- A complete slot with the expected number is queued (R7). -/
theorem test_header_in_sequence :
    answers (exec (.headerWrite 0 0xF 0x00C60000) (withPart (readyPart 0)))
      (fun t => t.part.intake.queue == [plainRow (beamsBelow 384)] && t.part.intake.expected == 1 &&
        t.part.belt.present == .running && t.part.head.state == .homing) = true := by decide +kernel

/-- A gap of one row is bridged by a copy of the last row (R8). -/
theorem test_header_bridge :
    answers (exec (.headerWrite 0 0xF 0x00C60001) (withPart (readyPart 0)))
      (fun t => t.part.intake.queue ==
        [{ plainRow 0 with gap := true }, plainRow (beamsBelow 384)] && t.part.intake.synthesized == 1) = true := by
  decide +kernel

theorem test_beamWord_allocates :
    answers (exec (.beamWordWrite 3 1 0x3 0x12345678) (withPart ringPart))
      (fun t => (t.part.intake.buffers.map (fun b => (b.slot, b.words.head?))) ==
        [(3, some { data := 0x5678, written := 0x3 })]) = true := by decide +kernel

/-- A row with one run of leather: a hide is born in entry 0 with number 1 (R30). -/
theorem test_rowPass_birth :
    answers (exec (.rowPass none) (withPart { Part.powerOn with intake.queue := [plainRow 0x3FC00] }))
      (fun t => t.part.tracker.rowIndex == 1 && t.part.tracker.prev == [{ start := 10, stop := 17, owner := .entry 0 }] &&
        (t.part.tracker.table.head?.join.map (fun h => (h.number, h.covered, h.minCol, h.maxCol))) == some (1, 8, 10, 17)) = true := by
  decide +kernel

/-- The row after it is bare: the hide closes, is SMALL and leaves its record (R42, R76, R79). -/
theorem test_rowPass_close :
    answers (exec (.rowPass none) (withPart { Part.powerOn with
        intake.queue := [plainRow 0]
        tracker.rowIndex := 1
        tracker.prev := [{ start := 10, stop := 20, owner := .entry 0 }]
        tracker.table := some (hide 1 0 1) :: List.replicate 15 none }))
      (fun t => t.part.openHides == [] && t.part.tracker.closed == 1 && t.part.lots.openLot.tally.small == 1 &&
        (t.part.recorder.outgoing.map (fun r => r.words.head?)) == [some 0x00019001]) = true := by decide +kernel

/-- A burst wraps inside its 32-byte block, and only enabled lanes are written (R164, R165). -/
theorem test_upstream_burst_wraps :
    answers (exec (.upstreamTransaction (some (Transaction.mk true 0x10001C
        [{ enables := 0xF, data := 0x44332211 }, { enables := 0x1, data := 0xFFFFFFAA }])) none) State.reset)
      (fun t => t.path.ram == [(0x100000, 0xAA), (0x10001C, 0x11), (0x10001D, 0x22), (0x10001E, 0x33), (0x10001F, 0x44)] &&
        t.path.fairness == 1) = true := by decide +kernel

/-- A write to the command word runs the command: an unknown code 9 with tag 5 (R177). -/
theorem test_upstream_command :
    answers (exec (.upstreamTransaction (some (oneBeat true 0x1FF13C 0x00050009)) none) State.reset)
      (fun t => t.part.setup.result == { tag := 5, code := 9, result := .unknown, offset := 0 }) = true := by decide +kernel

theorem test_postedWord_goes_out :
    answers (exec .postedWordWrite { State.reset with path.queue := [{ addr := 0x100, data := 7 }] })
      (fun t => t.path.port == some (.partWord { addr := 0x100, data := 7 }) && t.path.queue == []) = true := by decide +kernel

theorem test_partWord_lands :
    answers (exec .partWordComplete { State.reset with path.port := some (.partWord { addr := 0x100, data := 0x700 }) })
      (fun t => t.path.ram == [(0x101, 7)] && t.path.port == none) = true := by decide +kernel

theorem test_statusWord_post :
    answers (exec .statusWordPost (withPart { Part.powerOn with dirty := [3, 5] }))
      (fun t => t.path.queue == [{ addr := 0x1FF14C, data := 1 }] && t.part.dirty == [5]) = true := by decide +kernel

/-- The ring part with a ring of 16 records at 0x40 and a record waiting. -/
def recordPart : Part :=
  { Part.powerOn with
    setup.unguarded.ringSize := 16
    setup.unguarded.ringBase := 0x40
    recorder.outgoing := [.event .beltGap 5 2] }

theorem test_recordMoveOut :
    answers (exec .recordMoveOut (withPart recordPart))
      (fun t => t.part.recorder.outgoing == [] &&
        t.part.recorder.inProgress == some { record := .event .beltGap 5 2, next := 0 }) = true := by decide +kernel

theorem test_recordWord_handIn :
    answers (exec .recordWordHandIn (withPart { recordPart with
        recorder.inProgress := some { record := .event .beltGap 5 2, next := 0 }, recorder.p := 1 }))
      (fun t => t.path.queue == [{ addr := 0x80, data := 0x304 }]) = true := by decide +kernel

theorem test_producerIndex_wraps :
    answers (exec .producerIndexHandIn (withPart { recordPart with
        recorder.inProgress := some { record := .event .beltGap 5 2, next := 16 }, recorder.p := 15 }))
      (fun t => t.path.queue == [{ addr := 0x1FF184, data := 0 }] && t.part.recorder.p == 0) = true := by decide +kernel

theorem test_consumerIndex :
    answers (exec (.consumerIndexWrite 0xF 15) (withPart recordPart)) (fun t => t.part.recorder.c == 15) = true ∧
    answers (exec (.consumerIndexWrite 0xF 16) (withPart recordPart))
      (fun t => t.part.recorder.c == 0 && t.part.recorder.heldC == 16) = true := by decide +kernel

theorem test_setupWord_lanes :
    answers (exec (.setupWordWrite 3 0x1 0xFFFFFF05) State.reset) (fun t => t.part.setup.staged.getD 3 0 == 5) = true := by
  decide +kernel

theorem test_argumentWord :
    answers (exec (.argumentWordWrite .two 0x2 0xAB00) State.reset) (fun t => t.part.setup.arg2 == 0xAB00) = true := by
  decide +kernel

theorem test_statusBlock_marks_dirty :
    answers (exec (.statusBlockWrite 47) (withPart { Part.powerOn with dirty := [] })) (fun t => t.part.dirty == [47]) = true := by
  decide +kernel

/-- Window 1 on four bytes at 0x200, enabled GLOBAL. -/
def windowPart : Part :=
  { Part.powerOn with
    setup.unguarded.windows :=
      [{ base := 0, size := 4, readWrite := false, enable := .off },
       { base := 0x200, size := 2, readWrite := false, enable := .global },
       { base := 0, size := 4, readWrite := false, enable := .off },
       { base := 0x200, size := 4, readWrite := true, enable := .off }] }

/-- A mark with the bytes of the window, and the flag of the disabled window too (R97 to R99). -/
theorem test_markWindow :
    answers (exec (.markWindowMatch true 0x80 0xF 0x44332211) (withPart windowPart))
      (fun t => t.part.lots.sticky == 0xA && t.part.recorder.outgoing == [.mark 1 0x2211 0 none false 0] &&
        t.part.lots.openLot.tally.marks == 1) = true := by decide +kernel

/-- A COMMIT of a changed gap bridge and mark lag with everything else as after reset (R179). -/
theorem test_commit_unguarded :
    answers (exec (.commit 9) (withPart { Part.powerOn with setup.staged := stagedPowerOn.set 3 5 }))
      (fun t => t.part.setup.unguarded.gapBridge == 5 && t.part.setup.result == { tag := 9, code := 1, result := .done, offset := 0 }) = true := by
  decide +kernel

/-- A beam count of 100 is refused RANGE at word 2 (R178). -/
theorem test_commit_range :
    answers (exec (.commit 9) (withPart { Part.powerOn with setup.staged := stagedPowerOn.set 2 100 }))
      (fun t => t.part.setup.guarded == Guarded.powerOn &&
        t.part.setup.result == { tag := 9, code := 1, result := .range, offset := 2 }) = true := by decide +kernel

theorem test_lotNext :
    answers (exec (.lotNext 4) (withPart { Part.powerOn with setup.arg1 := 12 }))
      (fun t => t.part.lots.openLot == Lot.fresh 12 1 && t.part.lots.closing == none &&
        t.part.recorder.outgoing == [.lot (Lot.fresh 0 0)]) = true := by decide +kernel

theorem test_manualEnter :
    answers (exec (.manualEnter 4) (withPart { Part.powerOn with setup.arg1 := 84, setup.arg2 := 0x103 }))
      (fun t => t.part.lots.openLot.tally.manual == 1 && t.part.tracker.counter == 2 &&
        (t.part.recorder.outgoing.map (fun r => (r.words.getD 0 0, r.words.getD 8 0, r.words.getD 12 0))) ==
          [(0x00013201, 0xA12A, 0xA2)]) = true := by decide +kernel

theorem test_clearSticky :
    answers (exec (.clearSticky 1) (withPart { Part.powerOn with lots.sticky := 5, lots.markDropSticky := true }))
      (fun t => t.part.lots.sticky == 0 && !t.part.lots.markDropSticky) = true := by decide +kernel

theorem test_headReset :
    answers (exec (.headReset 1) State.reset)
      (fun t => t.part.head.state == .homing &&
        (t.part.head.slots.map (fun x => x.held.word)) == [0x2000, 0x2000, 0x2000, 0x2000, 0x2000, 0]) = true := by decide +kernel

theorem test_parkNow :
    answers (exec (.parkNow 1) (withPart { Part.powerOn with
        belt := { present := .halted, last := some .running, halt := none, park := some 3 } }))
      (fun t => t.part.belt == { present := .parked, last := some .halted, halt := none, park := none } &&
        t.part.setup.result.result == .done) = true ∧
    answers (exec (.parkNow 1) State.reset) (fun t => t.part.setup.result.result == .state) = true := by decide +kernel

/-- RESTART with a hide open and a row queued (R19, R46). -/
theorem test_restart :
    answers (exec (.restart 6) (withPart { Part.powerOn with
        intake.queue := [plainRow 1]
        tracker.table := some (hide 1 0 1) :: List.replicate 15 none }))
      (fun t => t.part.intake.dropped == 1 && t.part.openHides == [] &&
        (t.part.recorder.outgoing.map (fun r => (r.words.getD 11 0, r.words.getD 12 0))) == [(0x100, 0x92)]) = true := by
  decide +kernel

theorem test_unknownCommand :
    answers (exec (.unknownCommand 0 3) State.reset)
      (fun t => t.part.setup.result == { tag := 3, code := 0, result := .unknown, offset := 0 }) = true := by decide +kernel

/-- The belt RUNNING with this much gone by on the halt timer. -/
def runningPart (e : Nat) : Part :=
  { Part.powerOn with belt := { present := .running, last := some .parked, halt := some e, park := none } }

/-- The belt HALTED with this much gone by on the park timer. -/
def haltedPart (e : Nat) : Part :=
  { Part.powerOn with belt := { present := .halted, last := some .running, halt := none, park := some e } }

theorem test_haltTimer :
    answers (exec .haltTimerExpiry (withPart (runningPart 9)))
      (fun t => t.part.belt == { present := .halted, last := some .running, halt := none, park := some 0 }) = true := by
  decide +kernel

theorem test_parkTimer :
    answers (exec .parkTimerExpiry (withPart (haltedPart 9))) (fun t => t.part.belt.present == .parked) = true := by
  decide +kernel

/-- An idle microsecond, and the one at which the halt time is reached. -/
theorem test_idle_step :
    answers (step (withPart (runningPart 3))) (fun t => t.part.belt.halt == some 4) = true ∧
    answers (step (withPart (runningPart 499999))) (fun t => t.part.belt.present == .halted) = true := by decide +kernel

theorem test_frameBoundary_gated :
    answers (exec .frameBoundary State.reset) (fun t => t.part.head.frame == none && t.part.head.gated) = true := by
  decide +kernel

/-- The head link in a state, with these words held, sent and latched. -/
def headPart (st : HeadState) (cmds : List SlotCmd) : Part :=
  { runningPart 0 with
    head.state := st
    head.slots := cmds.map Slot.powerOn
    head.frame := some { latched := cmds, htx := cmds.map (fun c => some c.word) ++ [none, none] } }

/-- The commands of HOMING. -/
def homeCmds : List SlotCmd := [.home, .home, .home, .home, .home, .safe]

/-- Status words with odd parity: IDLE at carriage home, IDLE blank, hammer IDLE with count 3, BUSY. -/
theorem test_statusWords :
    decodeStatus 0x8F00 = .idle 0xF00 ∧ decodeStatus 0x800A = .idle 10 ∧ decodeStatus 0x8003 = .idle 3 ∧
    decodeStatus 0x1000 = .busy ∧ parityGood 0x8F00 = true ∧ parityGood 0x800A = true ∧ parityGood 0x8003 = true ∧
    parityGood 0x1000 = true ∧ parityGood 0x2001 = false := by decide +kernel

theorem test_frameEnd_homes :
    answers (exec (.frameEnd 0x8F00 0x800A 0x800A 0x800A 0x800A 0x8003) (withPart (headPart .homing homeCmds)))
      (fun t => t.part.head.state == .ready && t.part.head.hammerCount == some 3) = true := by decide +kernel

theorem test_noStrike :
    answers (exec .noStrike (withPart (headPart .striking [.goto 3, .set 1, .set 1, .set 1, .set 1, .arm])))
      (fun t => t.part.head.state == .faulted && t.part.recorder.outgoing == [.event .headFault 0 0x505]) = true := by
  decide +kernel

/-! ### States that meet the hypotheses of the statements -/

theorem test_meets_IdleStepCountsTime :
    (State.reset.pending = [] ∧ timerDue (State.reset.part.belt.halt.map (· + 1)) State.reset.part.haltLength = false ∧
      timerDue (State.reset.part.belt.park.map (· + 1)) State.reset.part.parkLength = false) ∧
    ((withPart (runningPart 499999)).pending = [] ∧ (runningPart 499999).belt.halt = some 499999 ∧
      (runningPart 499999).belt.present = .running ∧ (runningPart 499999).haltLength ≤ 499999 + 1) ∧
    ((withPart (haltedPart 119999999)).pending = [] ∧ (haltedPart 119999999).belt.park = some 119999999 ∧
      (haltedPart 119999999).belt.present = .halted ∧ (haltedPart 119999999).belt.halt = none ∧
      (haltedPart 119999999).parkLength ≤ 119999999 + 1) := by decide +kernel

theorem test_meets_WellFormedCommandsComplete :
    Instr.wellFormed (.setupWordWrite 79 0 0) = true ∧ Instr.wellFormed (.setupWordWrite 80 0 0) = false := by decide

theorem test_meets_PartCommandsLeaveThePath :
    Instr.wellFormed (.commit 0) = true ∧ partOnly (.commit 0) = true := by decide

/-- A step from reset with a posted word to write. -/
theorem test_meets_RamStaysCanonical :
    ∃ s t : State, s.ramOk ∧ step s = .next t :=
  ⟨{ State.reset with pending := [.postedWordWrite] }, State.reset, rfl, rfl⟩

theorem test_meets_EveryBoundIsKept : ∃ s t : State, s.ok ∧ step s = .next t :=
  ⟨{ State.reset with pending := [.postedWordWrite] }, State.reset, ⟨rfl, ⟨by decide, by decide⟩, Part.powerOn_ok 0⟩, rfl⟩

theorem test_meets_ResumedPassIsTheWholePass :
    answers (exec (.rowPass (some 0)) (withPart (readyPart 1))) (fun t => t.part.tracker.pass.isSome) = true ∧
    answers (exec (.rowPass (some 9)) (withPart (readyPart 1))) (fun t => t.part.tracker.pass == none) = true := by decide +kernel

theorem test_meets_IgnoredBeatsChangeNothing :
    ringPart.setup.guarded.slotCount ≤ (4 : BitVec 6).toNat ∧
    3 * (ringPart.setup.guarded.beams / 32) < (37 : BitVec 6).toNat ∧
    ((0x00C50000 : Word).extractLsb' 16 8 ≠ 0xC6) ∧ (0x7 : Lanes) ≠ 0xF := by decide +kernel

/-- The ring part with two incomplete buffers, for slots 0 and 1. -/
def twoBuffers : Part := { ringPart with intake.buffers := [Buffer.fresh 0 384, Buffer.fresh 1 384] }

theorem test_meets_BeamWordIsCaptured :
    ((3 : BitVec 6).toNat < twoBuffers.setup.guarded.slotCount ∧ 1 ≤ (1 : BitVec 6).toNat ∧
      (36 : BitVec 6).toNat ≤ 3 * (twoBuffers.setup.guarded.beams / 32)) ∧
    (∃ b ∈ twoBuffers.intake.buffers, b.slot = 1) ∧
    ((∀ b ∈ ringPart.intake.buffers, b.slot ≠ 3) ∧ ringPart.intake.buffers.length < 2) ∧
    (∃ a b, twoBuffers.intake.buffers = [a, b] ∧ a.slot ≠ 3 ∧ b.slot ≠ 3) :=
  ⟨by decide, ⟨_, List.mem_cons_of_mem _ (List.mem_cons_self ..), rfl⟩, by decide, ⟨_, _, rfl, by decide, by decide⟩⟩

theorem test_meets_HeaderOfAnIncompleteSlot :
    ((3 : BitVec 6).toNat < ringPart.setup.guarded.slotCount ∧ (0x01C60005 : Word).extractLsb' 16 8 = (0xC6 : Byte)) ∧
    ringPart.bufferFor 3 = none ∧ (twoBuffers.bufferFor 1).map Buffer.complete = some false := by decide +kernel

theorem test_meets_SyncRow :
    (∀ n ∈ [3, 4], (0 : BitVec 6).toNat < (readyPart n).setup.guarded.slotCount ∧
      (readyPart n).bufferFor 0 = some (fullBuffer 0) ∧ (readyPart n).intake.queue.length = n) ∧
    (fullBuffer 0).complete = true ∧ (0x01C60005 : Word).getLsbD 24 = true ∧
    (0x01C60005 : Word).extractLsb' 16 8 = (0xC6 : Byte) := by decide +kernel

/-- Each clause at its bounds: d of 0, 1, 2 (bridged), 3 (past the bridge), 32767 and 32768, and queues that leave just enough
places or one too few. -/
theorem test_meets_SequenceCheck :
    (∀ n ∈ [0, 1, 2, 3, 4], (0 : BitVec 6).toNat < (readyPart n).setup.guarded.slotCount ∧
      (readyPart n).bufferFor 0 = some (fullBuffer 0) ∧ (readyPart n).intake.syncPending = false ∧
      (readyPart n).intake.queue.length = n ∧ (readyPart n).setup.unguarded.gapBridge = 2 ∧
      (readyPart n).intake.expected = 0) ∧
    (fullBuffer 0).complete = true ∧
    [(0x00C60000 : Word), 0x00C60001, 0x00C60002, 0x00C60003, 0x00C67FFF, 0x00C68000].all
      (fun d => !d.getLsbD 24 && d.extractLsb' 16 8 == (0xC6 : Byte)) = true ∧
    ([(0x00C60000 : Word), 0x00C60001, 0x00C60002, 0x00C60003, 0x00C67FFF, 0x00C68000].map
      (fun d => (d.extractLsb' 0 16 - (readyPart 0).intake.expected).toNat)) = [0, 1, 2, 3, 32767, 32768] ∧
    (1 + 2 + 1 ≤ 4 ∧ 4 < 2 + 2 + 1) := by decide +kernel

/-- The part with beams 3 and 7 one row short of the stuck-row limit. -/
def stuckPart : Part :=
  { Part.powerOn with intake.stuck := ((List.replicate 384 0).set 3 4095).set 7 4095 }

/-- A row that covers beams 3, 7 and 8: two beams join the auto-mask, with their events, and an open hide is flagged. -/
theorem test_meets_ConditionedBeams :
    (stuckPart.setup.guarded.beams ≤ 384 ∧ stuckPart.intake.stuck.length = 384 ∧ stuckPart.tracker.pass = none) ∧
    (stuckPart.condition { a := 0x188, b := 0x188, c := 0 }).2.recorder.outgoing =
      [.event .beamStuck 0 3, .event .beamStuck 0 7] ∧
    (let q := (Part.condition { stuckPart with tracker.spill := some (hide 1 0 1) } { a := 0x188, b := 0x188, c := 0 }).2
     q.tracker.spill.map (fun h => h.flags.maskedBeams) = some true) := by decide +kernel

/-- Masks with both neighbours, only one below or above, none, and a run of two masked beams. -/
theorem test_meets_MaskedBeamValues :
    ({ Part.powerOn with setup.guarded.beams := 64, setup.guarded.mask := 0x6 } : Part).setup.guarded.beams ≤ 384 ∧
    ((0x6 : Beams).getLsbD 0 = false ∧ (0x6 : Beams).getLsbD 1 = true ∧ (0x6 : Beams).getLsbD 2 = true ∧
      (0x6 : Beams).getLsbD 3 = false) ∧
    ((0x8000000000000000 : Beams).getLsbD 62 = false ∧ (0x8000000000000000 : Beams).getLsbD 63 = true) ∧
    ((0x1 : Beams).getLsbD 0 = true ∧ (0x1 : Beams).getLsbD 1 = false) ∧
    (∀ c ∈ List.range 64, (0xFFFFFFFFFFFFFFFF : Beams).getLsbD c = true) ∧
    (∀ c ∈ List.range 64, (0x10000000000000006 : Beams).getLsbD c = (0x6 : Beams).getLsbD c) := by decide +kernel

/-- The part with a pass in progress, as ROW_PASS of no unit leaves it. -/
def passPart : Part := (readyPart 1).takeRow

theorem test_meets_RowPassTakesOneRow :
    (Part.powerOn.tracker.pass = none ∧ Part.powerOn.intake.queue = []) ∧
    ((readyPart 1).tracker.pass = none ∧ (readyPart 1).intake.queue = plainRow 0 :: []) ∧
    passPart.tracker.pass.isSome = true ∧
    ({ passPart with tracker.noticeWaiting := true } : Part).tracker.noticeWaiting = true := by decide +kernel

/-- A pass that stands at a stage, with two segments in the current list and a run in the current hole-run list. -/
def stagePart (st : PassStage) : Part :=
  { Part.powerOn with
    tracker.rowIndex := 5
    tracker.pass := some { row := plainRow 0xFF, stage := st }
    tracker.table := some (hide 1 0 1) :: List.replicate 15 none
    tracker.cur := [{ start := 10, stop := 13, owner := .entry 0 }, { start := 16, stop := 20, owner := .entry 0 }]
    holes.curRuns := [{ start := 14, stop := 15, hole := 0 }]
    sched.heights := List.replicate 384 3 }

/-- One unit of work at each stage, in the order of 2.1; at stage 8 without and with RESTART waiting. -/
theorem test_meets_StagesHandOn :
    let stageAfter := fun st => match exec (.rowPass (some 1)) (withPart (stagePart st)) with
      | .next t => t.part.tracker.pass.map Pass.stage
      | .fault _ | .refused _ => none
    stageAfter .segmentation = some (.ownership [{ start := 0, stop := 7, united := false }]) ∧
    stageAfter (.ownership [{ start := 0, stop := 7, united := false }]) = some (.ownership []) ∧
    stageAfter (.ownership []) = some .accumulation ∧
    stageAfter .accumulation = some (.gaps [{ start := 14, stop := 15, owner := 0 }]) ∧
    stageAfter (.gaps [{ start := 14, stop := 15, owner := 0 }]) = some (.gaps []) ∧
    stageAfter (.gaps []) = some .closingCheck ∧ stageAfter .closingCheck = some (.closing []) ∧
    stageAfter (.closing []) = some .sites ∧ stageAfter .sites = some .exchange ∧ stageAfter .exchange = none ∧
    answers (exec (.rowPass (some 1)) (withPart (stagePart .exchange)))
      (fun t => t.part.tracker.prev == (stagePart .exchange).tracker.cur &&
        t.part.holes.prevRuns == (stagePart .exchange).holes.curRuns) = true ∧
    ({ stagePart .exchange with tracker.restartsWaiting := 1 } : Part).tracker.restartsWaiting ≠ 0 := by decide +kernel

/-- Rows of one run, of 128 runs and of 129 runs. -/
theorem test_meets_SegmentsAreTheCoveredRuns :
    (runsFrom (BitVec.ofNat 384 (2 ^ 384 - 1)) 384 0 none).length = 1 ∧
    (runsFrom (BitVec.ofNat 384 ((2 ^ 256 - 1) / 3)) 384 0 none).length = 128 ∧
    (runsFrom (BitVec.ofNat 384 ((2 ^ 258 - 1) / 3)) 384 0 none).length = 129 := by decide +kernel

/-- Two OPEN entries of equal first rows, a third of a later one, and the spill account, whose previous segments stand in the
order entry 1, entry 0, entry 2, spill. -/
def mergePart : Part :=
  { Part.powerOn with
    tracker.table := some (hide 1 0 1) :: some (hide 2 0 1) :: some (hide 3 0 2) :: List.replicate 13 none
    tracker.spill := some (hide 4 0 1)
    tracker.prev := [{ start := 10, stop := 13, owner := .entry 1 }, { start := 16, stop := 20, owner := .entry 0 },
      { start := 22, stop := 30, owner := .entry 2 }, { start := 40, stop := 50, owner := .spill }]
    tracker.cur := [{ start := 0, stop := 5, owner := .entry 0 }, { start := 8, stop := 9, owner := .entry 0 }]
    holes.table := some { owner := 0, firstRow := 1, cells := 3 } :: List.replicate 31 none }

/-- An owner set at shared edge columns, and what two segments of one owner add to it, beam 0 among them. -/
theorem test_meets_Ownership :
    mergePart.ownerSet { start := 13, stop := 22, united := true } = [.entry 1, .entry 0, .entry 2] ∧
    mergePart.ownerSet { start := 14, stop := 15, united := false } = [] ∧
    (mergePart.accumulate { covered := 0x33F, noisy := 0x101, gap := true, trunc := false }).hideOf (.entry 0) = some { hide 1 0 1 with
      covered := 19, lastRow := 0, minCol := 0, maxCol := 20, noise := 2
      flags := { HideFlags.empty with edge := true, gapRows := true } } ∧
    (mergePart.accumulate (plainRow 0x33F)).hideOf (.entry 1) = some (hide 2 0 1) ∧
    ((mergePart.ownSegment { start := 13, stop := 22, united := true }).hideOf (.entry 1)).map (fun h => h.flags.fragment) =
      some true := by decide +kernel

theorem test_meets_HideNumberIsFree :
    (Part.powerOn.tracker.counter ≠ 0 ∧ Part.powerOn.carriedNumbers.length < 65535 ∧
      Part.powerOn.tracker.counter ∉ Part.powerOn.carriedNumbers) ∧
    ({ Part.powerOn with
        tracker.counter := 65535
        tracker.table := some (hide 65535 0 1) :: List.replicate 15 none } : Part).drawNumber.1 = 1 := by decide +kernel

/-- The part with all sixteen entries OPEN. -/
def fullTable : Part := { Part.powerOn with tracker.table := List.replicate 16 (some (hide 1 0 1)) }

theorem test_meets_BirthTakesTheLowestFree :
    (0 < Part.powerOn.tracker.table.length ∧ Part.powerOn.tracker.table[0]? = some none) ∧
    (∃ p : Part, p.tracker.table[15]? = some none ∧ ∀ j ∈ List.range 15, p.tracker.table[j]? ≠ some none) ∧
    ((∀ j : Nat, fullTable.tracker.table[j]? ≠ some none) ∧ fullTable.tracker.spill = none) ∧
    ({ fullTable with tracker.spill := some (hide 2 0 1) } : Part).tracker.spill.isSome = true :=
  ⟨by decide, ⟨{ fullTable with tracker.table := List.replicate 15 (some (hide 1 0 1)) ++ [none] }, by decide, by decide⟩,
    ⟨fun j h => by
      have := List.mem_of_getElem? h
      simp [fullTable] at this, rfl⟩, rfl⟩

/-- The lot a birth is given: a CLOSING lot before the boundary row and at it, a pack of one due with and without a CLOSING lot. -/
theorem test_meets_BirthLot :
    (let p : Part := { Part.powerOn with lots.closing := some (Lot.fresh 3 0), lots.openLot := Lot.fresh 4 7 }
     ({ p with tracker.rowIndex := 6 } : Part).birthLot.1 = 3 ∧ ({ p with tracker.rowIndex := 7 } : Part).birthLot.1 = 4 ∧
     ({ p with tracker.rowIndex := 7, setup.unguarded.packSize := 1 } : Part).birthLot.2.lots.packPending = true) ∧
    (let q := ({ Part.powerOn with setup.unguarded.packSize := 1 } : Part).birthLot.2
     q.lots.openLot.id = 1 ∧ q.lots.closing.map (fun l => (l.tally.births, l.packAuto)) = some (1, true)) ∧
    ({ Part.powerOn with setup.unguarded.packSize := 2 } : Part).birthLot.2.lots.packCounter = 1 := by decide +kernel

/-- Two OPEN entries, the first born earlier. -/
def twoHides : Part :=
  { Part.powerOn with tracker.table := some (hide 1 0 1) :: some (hide 2 0 2) :: List.replicate 14 none }

/-- Of the four owners entry 1 survives: no first row is earlier, and its segments lie to the left of entry 0's. -/
theorem test_meets_MergeOfTwoEntries :
    (mergePart.hideOf (.entry 1) = some (hide 2 0 1) ∧ mergePart.hideOf (.entry 0) = some (hide 1 0 1) ∧
      mergePart.hideOf .spill = some (hide 4 0 1)) ∧
    (let x := mergePart.mergeOwners [.entry 1, .entry 0, .entry 2, .spill]
     x.1 = .entry 1 ∧ x.2.openHides.map (fun h => (h.number, h.covered, h.merges, h.flags.spillJoined)) = [(2, 44, 3, true)] ∧
     x.2.tracker.prev.map Seg.owner = List.replicate 4 (.entry 1) ∧
     x.2.holes.table.head? = some (some { owner := 1, firstRow := 1, cells := 3 })) := by decide +kernel

theorem test_meets_RestartClosesEverything :
    twoHides.tracker.pass = none ∧ passPart.tracker.pass.isSome = true ∧
    ({ twoHides with sched.current := some (job 1 9 5 .striking) } : Part).sched.current.map Job.state = some .striking ∧
    (twoHides.lots.closing = none ∧ twoHides.setup.snapshot = none ∧ twoHides.lots.markQueue = []) ∧
    answers (exec (.restart 1) (withPart { twoHides with
        sched.current := some (job 8 9 5 .queued), sched.waiting := [job 9 10 5 .queued] }))
      (fun t => t.part.tracker.closed == 2 &&
        (t.part.recorder.outgoing.map (fun r => ((r.words.getD 0 0).extractLsb' 16 16, (r.words.getD 12 0).extractLsb' 0 8))) ==
          [(8, 0x31), (9, 0x31), (1, 0x92), (2, 0x92)]) = true := by
  decide +kernel

/-- The part in row 3 of a hide in entry 0 with this hole-run list and hole table. -/
def holePart (prev cur : List Run) (table : List (Option Hole)) (now : List Seg) : Part :=
  { Part.powerOn with
    tracker.table := some (hide 1 0 1) :: List.replicate 15 none
    tracker.prev := [{ start := 10, stop := 13, owner := .entry 0 }, { start := 16, stop := 20, owner := .entry 0 }]
    tracker.cur := now
    holes.prevRuns := prev
    holes.curRuns := cur
    holes.table := table ++ List.replicate (32 - table.length) none }

/-- A hole of entry 0. -/
def holeOf0 : Hole := { owner := 0, firstRow := 2, cells := 40 }

/-- A hide of entry 0 with a hole still open closes, by each cause; the stages of a pass that close hides; a truncated row. -/
theorem test_meets_HidesClose :
    (let p := holePart [{ start := 14, stop := 15, hole := 0 }] [] [some holeOf0] []
     p.hideOf (.entry 0) = some (hide 1 0 1) ∧ p.holes.table.length = 32 ∧ p.recorder.outgoing.length < 8 ∧
     p.unstampedReason (p.infoOf .belt (hide 1 0 1)) = some .small ∧ p.toClose = [.entry 0] ∧
     (p.closeHide .row (.entry 0)).holes = { table := List.replicate 32 none, prevRuns := [], curRuns := [] } ∧
     ((p.closeHide .gap (.entry 0)).recorder.outgoing.map (fun r => (r.words.getD 10 0, r.words.getD 11 0))) = [(1, 0x100)] ∧
     (p.closeHide .restart (.entry 0)).lots.recent = [{ number := 1, lot := 0, firstRow := 1, lastRow := 1 }]) ∧
    (let q := stampPart 209 .unknown bandSettings
     ({ q with tracker.spill := some (hide 1 0 1) } : Part).hideOf .spill = some (hide 1 0 1) ∧
     q.unstampedReason (q.infoOf .belt (bigHide (some { row := 10, col := 30 }))) = none) ∧
    (twoHides.atStage (plainRow 0) .closingCheck).tracker.pass = some { row := plainRow 0, stage := .closingCheck } ∧
    twoHides.closeOrder twoHides.openOwners = [.entry 0, .entry 1] ∧
    (let r := { plainRow 0 with trunc := true }
     ({ twoHides with intake.queue := [r] } : Part).takeRow.tracker.pass =
       some { row := r, stage := .truncating [.entry 0, .entry 1] }) := by decide +kernel

/-- A gap under covered columns is a birth, one over the hole's run a continuation, one beside the hide no hole. -/
theorem test_meets_GapClassification :
    (holePart [{ start := 14, stop := 15, hole := 0 }] [] [some holeOf0] []).classOf { start := 11, stop := 13, owner := 0 } = .birth ∧
    (holePart [{ start := 14, stop := 15, hole := 0 }] [] [some holeOf0] []).classOf { start := 13, stop := 16, owner := 0 } = .continuation ∧
    (holePart [{ start := 14, stop := 15, hole := 0 }] [] [some holeOf0] []).classOf { start := 20, stop := 21, owner := 0 } = .notAHole ∧
    (∀ r ∈ (holePart [{ start := 14, stop := 15, hole := 0 }] [] [some holeOf0] []).holes.prevRuns, r.hole < 32) := by
  decide +kernel

/-- Candidate gaps: between segments of one entry, not of two owners, not of the spill account (R49). -/
theorem test_candidateGaps :
    (let seg := fun (a b : Nat) (o : Owner) => ({ start := a, stop := b, owner := o } : Seg)
     let segs := [seg 0 1 (.entry 0), seg 3 4 (.entry 0), seg 6 7 .spill, seg 9 9 .spill, seg 11 12 (.entry 1), seg 15 15 (.entry 1)]
     candidateGaps segs = [{ start := 2, stop := 2, owner := 0 }, { start := 13, stop := 14, owner := 1 }] ∧
     segs.Pairwise (fun a b => a.stop + 1 < b.start)) := by decide +kernel

/-- Two holes under one gap become the one of the lower index, first rows being equal; no hole breaches a hole. -/
theorem test_meets_HoleMerge :
    (let p := holePart [{ start := 14, stop := 14, hole := 3 }, { start := 15, stop := 15, hole := 1 }] []
       [none, some holeOf0, none, some holeOf0] []
     let g : Gap := { start := 14, stop := 15, owner := 0 }
     p.classOf g = .continuation ∧ p.holesOver g = [1, 3] ∧
     (p.classifyGap g).holes = { table := none :: some { holeOf0 with cells := 82 } :: List.replicate 30 none
                                 prevRuns := [{ start := 14, stop := 14, hole := 1 }, { start := 15, stop := 15, hole := 1 }]
                                 curRuns := [{ start := 14, stop := 15, hole := 1 }] }) ∧
    (let p := holePart [{ start := 14, stop := 15, hole := 0 }] [] [some holeOf0] []
     ((p.classifyGap { start := 15, stop := 25, owner := 0 }).hideOf (.entry 0)).map Hide.holesBreached = some 1) := by
  decide +kernel

theorem test_meets_HoleBirth :
    (0 < Part.powerOn.holes.table.length ∧ Part.powerOn.holes.table[0]? = some none ∧ Part.powerOn.holes.curRuns.length < 64) ∧
    64 ≤ (holePart [] (List.replicate 64 { start := 1, stop := 1, hole := 0 }) [some holeOf0] []).holes.curRuns.length ∧
    (holePart [{ start := 14, stop := 15, hole := 0 }] (List.replicate 64 { start := 1, stop := 1, hole := 0 }) [some holeOf0]
      []).classOf { start := 14, stop := 15, owner := 0 } = .continuation ∧
    (∀ j : Nat, ({ Part.powerOn with holes.table := List.replicate 32 (some holeOf0) } : Part).holes.table[j]? ≠ some none) :=
  ⟨by decide, by decide, by decide +kernel, fun j h => by have := List.mem_of_getElem? h; simp at this⟩

/-- The hole's cells capped (filled at the limit of 40 cells), continuing, and open. -/
theorem test_meets_HoleClosingCheck :
    ((holePart [{ start := 14, stop := 15, hole := 0 }] [] [some holeOf0] [{ start := 10, stop := 20, owner := .entry 0 }]).checkHole 0).hideOf
        (.entry 0) = some { hide 1 0 1 with filled := 40, holesFilled := 1 } ∧
    (holePart [{ start := 14, stop := 15, hole := 0 }] [{ start := 14, stop := 15, hole := 0 }] [some holeOf0]
        [{ start := 10, stop := 13, owner := .entry 0 }]).cellContinuing 0 14 = true ∧
    (holePart [{ start := 14, stop := 15, hole := 0 }] [] [some holeOf0] [{ start := 10, stop := 13, owner := .entry 0 }]).cellOpen
        0 0 14 = true := by decide +kernel

/-- Trims at both bounds, and a hide of 1000 cells at the power-on pitches in the three units. -/
theorem test_meets_UnitsAreTheRoundedQuotient :
    ({ Guarded.powerOn with trim := -500 } : Guarded).trim = -500 ∧ ({ Guarded.powerOn with trim := 500 } : Guarded).trim ≤ 500 ∧
    unitsOf Guarded.powerOn 1000 = 3 ∧ unitsOf { Guarded.powerOn with unit := .tft } 1000 = 7 ∧
    unitsOf { Guarded.powerOn with unit := .dm2, rounding := .down } 1000 = 6 := by decide +kernel

theorem test_meets_WheelSymbols :
    symbolsOf .qft 3999 = some { w1 := 9, w2 := 9, w3 := 9, w4 := 13 } ∧ symbolsOf .qft 4000 = none ∧
    symbolsOf .tft 9999 = some { w1 := 9, w2 := 9, w3 := 9, w4 := 9 } ∧ symbolsOf .dm2 10000 = none := by decide +kernel

/-- REVIEW, then 19 and 20 units about the small limit, 3999 and 4000 about the maximum, and the band at its two bounds. -/
theorem test_meets_GradeSteps :
    gradeOf Guarded.powerOn bandSettings .spill HideFlags.empty 100 none = .review ∧
    gradeOf Guarded.powerOn bandSettings .belt HideFlags.empty 19 none = .small ∧
    gradeOf Guarded.powerOn bandSettings .belt HideFlags.empty 20 none = .ungraded ∧
    gradeOf Guarded.powerOn bandSettings .belt HideFlags.empty 3999 none = .ungraded ∧
    gradeOf Guarded.powerOn bandSettings .belt HideFlags.empty 4000 none = .oversize ∧
    gradeOf Guarded.powerOn bandSettings .belt HideFlags.empty 100 none = .band 2 ∧
    gradeOf Guarded.powerOn bandSettings .belt HideFlags.empty 200 none = .band 2 := by decide +kernel

theorem test_meets_UngradedAndOverride :
    (HideFlags.empty.review = false ∧ Source.belt ≠ .spill ∧ Unguarded.powerOn.smallLimit ≤ 20 ∧
      20 ≤ Unguarded.powerOn.oversizeLimit) ∧
    gradeOf Guarded.powerOn bandSettings .manual HideFlags.empty 20 (some 7) = .band 7 ∧
    gradeOf Guarded.powerOn bandSettings .manual HideFlags.empty 19 (some 7) = .small ∧
    gradeOf Guarded.powerOn bandSettings .manual HideFlags.empty 4000 (some 7) = .oversize := by decide +kernel

/-- Each check of R79 in turn, the strike row (row 210) one row ahead and reached, and a full job queue. -/
theorem test_meets_EligibilityChecks :
    ((stampPart 209 .unknown bandSettings).infoOf .belt (bigHide none)).grade = .band 2 ∧
    (stampPart 209 .unknown { bandSettings with bands := bandSettings.bands.set 2 { low := 100, high := 200, stamp := false } }).unstampedReason
      ((stampPart 209 .unknown bandSettings).infoOf .belt (bigHide none)) = some .bandOff ∧
    (stampPart 209 .unknown { bandSettings with stamping := false }).unstampedReason
      ((stampPart 209 .unknown bandSettings).infoOf .belt (bigHide none)) = some .stampOff ∧
    (stampPart 209 .faulted bandSettings).unstampedReason
      ((stampPart 209 .faulted bandSettings).infoOf .belt (bigHide none)) = some .headFault ∧
    (stampPart 209 .ready bandSettings).unstampedReason
      ((stampPart 209 .ready bandSettings).infoOf .belt (bigHide none)) = some .noSite ∧
    (stampPart 210 .ready bandSettings).unstampedReason
      ((stampPart 210 .ready bandSettings).infoOf .belt (bigHide (some { row := 10, col := 30 }))) = some .lateClose ∧
    ({ stampPart 209 .ready bandSettings with sched.waiting := List.replicate 8 (job 9 999 5 .queued) } : Part).unstampedReason
      ((stampPart 209 .ready bandSettings).infoOf .belt (bigHide (some { row := 10, col := 30 }))) = some .queueFull ∧
    (stampPart 209 .ready bandSettings).unstampedReason
      ((stampPart 209 .ready bandSettings).infoOf .belt (bigHide (some { row := 10, col := 30 }))) = none := by decide +kernel

theorem test_meets_ManualEnter :
    (0 : Word).extractLsb' 0 16 = (0 : Half) ∧ ((0x108 : Word).getLsbD 8 = true ∧ 7 < ((0x108 : Word).extractLsb' 0 8).toNat) ∧
    ((1 : Word).extractLsb' 0 16 ≠ (0 : Half) ∧ ((0x107 : Word).extractLsb' 0 8).toNat ≤ 7 ∧
      Part.powerOn.recorder.outgoing.length < 8 ∧ Part.powerOn.lots.openLot.tally.hides < 65535 ∧
      Part.powerOn.lots.closing = none) := by decide +kernel

theorem test_meets_LotNext :
    ((1 : Word).extractLsb' 0 16 ≠ Part.powerOn.lots.openLot.id ∧ Part.powerOn.lots.closing = none ∧
      Part.powerOn.lots.packPending = false ∧ Part.powerOn.lotHeld 0 = false) ∧
    (twoHides.tracker.pass = none ∧ twoHides.lotHeld twoHides.lots.openLot.id = true) ∧
    passPart.lots.closing = none ∧
    ({ Part.powerOn with lots.closing := some (Lot.fresh 3 0) } : Part).lots.closing.isSome = true ∧
    (let p : Part := { Part.powerOn with lots.closing := some (Lot.fresh 3 0), lots.packPending := true }
     p.lotHeld 3 = false ∧ p.recorder.outgoing.length < 7 ∧ p.closingTest.recorder.outgoing = [.lot (Lot.fresh 3 0)] ∧
     ({ p with setup.unguarded.packSize := 1, lots.packCounter := 1 } : Part).closingTest.recorder.outgoing =
       [.lot (Lot.fresh 3 0), .lot { Lot.fresh 0 0 with packAuto := true }]) := by decide +kernel

theorem test_meets_TallyAddsUp :
    (∀ c, ({ Part.powerOn with lots.closing := some (Lot.fresh 3 0) } : Part).lots.closing = some c → c.id ≠ Part.powerOn.lots.openLot.id) ∧
    ((({ Part.powerOn with lots.closing := some (Lot.fresh 3 0) } : Part).release (info 1 3) .stamped none).lots.closing.map
      (fun l => l.tally.stamped)) = some 1 ∧
    (Tally.empty.bands.length = 8 ∧ Tally.empty.gradeSum = Tally.empty.hides ∧ (info 1 0).grade = .ungraded) ∧
    ({ Tally.empty with hides := 65535, ungraded := 65535 } : Tally).hides = 65535 ∧
    ({ Tally.empty with hides := 65534, ungraded := 65534 } : Tally).hides < 65535 := by
  refine ⟨fun c h => ?_, by decide +kernel⟩
  injection h with h
  exact h ▸ (by decide)

/-- The last byte of window 1 (two bytes from 0x200) is matched, the byte after it only by the disabled window 3. -/
theorem test_meets_MarkWindowMatch :
    windowPart.setup.unguarded.windows.length = 4 ∧
    (windowPart.setup.unguarded.windows.map (fun w => w.matchesBeat true 0x80 0x2)) = [false, true, false, true] ∧
    (windowPart.setup.unguarded.windows.map (fun w => w.matchesBeat true 0x80 0x4)) = [false, false, false, true] ∧
    (windowPart.setup.unguarded.windows.map (fun w => w.matchesBeat false 0x80 0x2)) = [false, false, false, true] ∧
    (let p : Part := { windowPart with setup.unguarded.markLag := 5 }
     p.tracker.rowIndex.toNat < p.setup.unguarded.markLag ∧ p.recorder.outgoing.length < 8 ∧
     p.setup.unguarded.markLag ≤ ({ p with tracker.rowIndex := 5 } : Part).tracker.rowIndex.toNat) := by
  decide +kernel

/-- A mark of row `t`. -/
def mark (t : Word) : Mark := { window := 0, data := 1, hitRow := t, hitLot := 0, target := t }

theorem test_meets_MarkQueue :
    (twoHides.hasOpenCandidate 1 = true ∧ twoHides.hasOpenCandidate 0 = false) ∧
    ({ twoHides with lots.markQueue := List.replicate 15 (mark 1) } : Part).lots.markQueue.length < 16 ∧
    16 ≤ ({ twoHides with lots.markQueue := List.replicate 16 (mark 1) } : Part).lots.markQueue.length ∧
    twoHides.lots.markDropSticky = false := by decide +kernel

/-- Recent hides of rows 1 to 5 and 5 to 9: row 5 fits both, row 10 none. -/
def recentPart : Part :=
  { Part.powerOn with lots.recent :=
      [{ number := 1, lot := 0, firstRow := 1, lastRow := 5 }, { number := 2, lot := 0, firstRow := 5, lastRow := 9 }] }

theorem test_meets_MarkResolution :
    recentPart.recorder.outgoing.length < 8 ∧
    (recentPart.resolveMark (mark 5)).recorder.outgoing = [.mark 0 1 5 (some 1) true 0] ∧
    (recentPart.resolveMark (mark 10)).recorder.outgoing = [.mark 0 1 10 none false 0] := by decide +kernel

/-- Windows of 4 columns in a segment from 0 to 6: left columns 1 and 3 lie equally far from the centre 3 once 2 is out. -/
theorem test_meets_SiteSearch :
    Part.powerOn.sched.heights.length = 384 ∧ 1 ≤ Guarded.powerOn.sw ∧
    siteIn Guarded.powerOn (List.replicate 384 4) { start := 0, stop := 6, owner := .entry 0 } = some 1 ∧
    siteIn Guarded.powerOn (List.replicate 384 4) { start := 1, stop := 4, owner := .entry 0 } = some 1 ∧
    siteIn Guarded.powerOn (List.replicate 384 4) { start := 0, stop := 3, owner := .entry 0 } = none ∧
    siteIn Guarded.powerOn (List.replicate 384 4) { start := 379, stop := 383, owner := .entry 0 } = some 379 ∧
    siteIn Guarded.powerOn (List.replicate 384 3) { start := 0, stop := 6, owner := .entry 0 } = none := by decide +kernel

/-- The site of an entry with two segments that offer one is the leftmost's; an entry without one, and the spill account, keep
theirs. -/
theorem test_siteStage :
    let p : Part := { stagePart .sites with
      tracker.table := some (hide 1 0 1) :: some (hide 2 0 1) :: List.replicate 14 none
      tracker.spill := some (hide 3 0 1)
      tracker.cur := [{ start := 1, stop := 9, owner := .spill }, { start := 11, stop := 13, owner := .entry 1 },
        { start := 20, stop := 23, owner := .entry 0 }, { start := 30, stop := 33, owner := .entry 0 }] }
    let q := p.siteStage (plainRow 0xFFFFFFFFF)
    (q.hideOf (.entry 0)).map Hide.site = some (some { row := 5, col := 20 }) ∧
    (q.hideOf (.entry 1)).map Hide.site = some none ∧ q.tracker.spill = p.tracker.spill := by decide +kernel

/-- A newcomer goes behind a job with its strike row and target column. -/
theorem test_meets_JobQueueOrder :
    [job 1 10 5 .queued, job 2 12 5 .queued].Pairwise
      (fun a b => (a.strikeRow.toNat, a.target) ≠ (b.strikeRow.toNat, b.target) ∧ a.strikeRow.toNat < b.strikeRow.toNat) ∧
    (({ Part.powerOn with sched.waiting := [job 1 10 5 .queued, job 2 12 5 .queued] } : Part).placeJob (job 3 10 5 .armed)).sched.waiting =
      [job 1 10 5 .queued, job 3 10 5 .queued, job 2 12 5 .queued] := by decide +kernel

/-- The commands of ARMED for the job in hand. -/
def armedCmds : List SlotCmd := [.goto 5, .set 10, .set 2, .set 5, .set 10, .arm]

/-- The head ARMED for job 1, whose strike row is `strike`, with a row to take. -/
def armedPart (strike : Word) (st : JobState) : Part :=
  { headPart .armed armedCmds with
    intake.queue := [plainRow 0]
    sched.current := some (job 1 strike 5 st)
    head.inHand := some { number := 1, target := 5, symbols := (job 1 strike 5 st).symbols } }

/-- The strike row is the row taken (1), or the row after it. -/
theorem test_meets_IncrementSettlesTheJobs :
    ((armedPart 1 .armed).tracker.pass = none ∧ (armedPart 1 .armed).head.state = .armed ∧
      (armedPart 1 .armed).head.inHand.map InHand.number = some 1 ∧ (armedPart 1 .armed).head.slots.length = 6 ∧
      ((armedPart 1 .armed).tracker.rowIndex + 1 - 1).toNat < 2147483648) ∧
    ¬ ((armedPart 2 .armed).tracker.rowIndex + 1 - 2).toNat < 2147483648 ∧
    answers (exec (.rowPass (some 0)) (withPart (armedPart 1 .armed))) (fun t => t.part.head.state == .striking) = true ∧
    answers (exec (.rowPass (some 0)) (withPart (armedPart 1 .preparing))) (fun t => t.part.head.state == .ready) = true := by
  decide +kernel

/-- A job missed in PREPARING, the waiting job with the same strike row missed after it, the next one prepared; a STRIKING job
left alone; a QUEUED one missed while the head homes; a withdrawal with the belt PARKED. -/
theorem test_meets_MissedJobs :
    let part := fun (h : HeadState) (st : JobState) =>
      { armedPart 1 st with head.state := h, sched.waiting := [job 2 1 6 .queued, job 3 2 6 .queued] }
    answers (exec (.rowPass (some 0)) (withPart { part .preparing .preparing with belt := (runningPart 1).belt }))
      (fun t => t.part.recorder.outgoing == [.hide (info 1 0) (.missed .notReady) (some 1), .hide (info 2 0) (.missed .passed) (some 1)] &&
        t.part.head.state == .preparing && t.part.jobs == [job 3 2 6 .preparing]) = true ∧
    answers (exec (.rowPass (some 0)) (withPart (part .striking .striking)))
      (fun t => t.part.jobs == [job 1 1 5 .striking, job 3 2 6 .queued]) = true ∧
    answers (exec (.rowPass (some 0)) (withPart (part .homing .queued)))
      (fun t => t.part.sched.current == some (job 3 2 6 .queued) && t.part.head.state == .homing) = true ∧
    answers (exec (.rowPass (some 0)) (withPart { part .preparing .preparing with belt := Part.powerOn.belt }))
      (fun t => t.part.head.state == .parking && t.part.sched.current == none) = true := by decide +kernel

theorem test_meets_FrameBoundary :
    (Part.powerOn.head.frame = none ∧ Part.powerOn.belt.present = .parked ∧
      ∀ x ∈ Part.powerOn.head.slots, x.held = x.lastSent) ∧
    (runningPart 0).belt.present ≠ .parked ∧
    (∃ x ∈ (Part.powerOn.enterHoming .headReset).head.slots, x.held ≠ x.lastSent) := by decide +kernel

/-- Words: absent, a parity error after one and after two others, a good IDLE, a module fault. -/
theorem test_meets_JudgingAStatusWord :
    HeadState.homing ≠ .faulted ∧ (0x0003 : BitVec 16) ≠ 0xFFFF ∧
    ((List.range 16).filter (fun k => (0x0003 : BitVec 16).getLsbD k)).length % 2 = 0 ∧
    ((List.range 16).filter (fun k => (0x8003 : BitVec 16).getLsbD k)).length % 2 = 1 ∧
    ((List.range 16).filter (fun k => (0x2000 : BitVec 16).getLsbD k)).length % 2 = 1 ∧
    decodeStatus 0x2000 = .fault 0 ∧ decodeStatus 0x1000 = .busy ∧
    (judgeSlot 0 .homing none (Slot.powerOn .home) .home 0x8003).fault = some .mismatch ∧
    (judgeSlot 0 .homing none (Slot.powerOn .home) .hold 0x8003).fault = none ∧
    (judgeSlot 5 .striking (some 3) (Slot.powerOn .arm) .arm 0x0007).fault = some .count ∧
    (judgeSlot 5 .striking (some 3) (Slot.powerOn .arm) .arm 0x0004).fault = none := by decide +kernel

theorem test_meets_FaultEndsTheJobs :
    (headPart .homing homeCmds).head.slots.length = 6 ∧
    firstFault 0 (judgeAll .homing none 0 (headPart .homing homeCmds).head.slots homeCmds
      [0xFFFF, 0x800A, 0x800A, 0x800A, 0x800A, 0x8003]) = some (0, .absent) ∧
    ((headPart .homing homeCmds).head.state ≠ .striking ∧ (headPart .homing homeCmds).lots.closing = none) ∧
    ({ headPart .striking armedCmds with head.window := 14 } : Part).head.window < 15 := by decide +kernel

theorem test_meets_NoStrike :
    Part.powerOn.head.state ≠ .striking ∧ (headPart .striking armedCmds).head.state = .striking ∧
    (headPart .striking armedCmds).head.slots.length = 6 ∧ (headPart .striking armedCmds).jobs = [] := by decide +kernel

/-- Frames of STRIKING: the STRIKE frame, the 15th frame after it, and the 16th, all without a confirmation. -/
theorem test_meets_StrikeWindow :
    answers (exec (.frameEnd 0x1000 0x1000 0x1000 0x1000 0x1000 0x1000) (withPart (headPart .striking (armedCmds.set 5 .strike))))
      (fun t => t.part.head.state == .striking && t.part.head.slots.map Slot.held == armedCmds) = true ∧
    answers (exec (.frameEnd 0x1000 0x1000 0x1000 0x1000 0x1000 0x1000)
        (withPart { headPart .striking armedCmds with head.window := 14 }))
      (fun t => t.part.head.state == .striking && t.part.head.window == 15) = true ∧
    answers (exec (.frameEnd 0x1000 0x1000 0x1000 0x1000 0x1000 0x1000)
        (withPart { headPart .striking armedCmds with head.window := 15 }))
      (fun t => t.part.head.state == .faulted && t.part.recorder.outgoing == [.event .headFault 0 0x505]) = true := by
  decide +kernel

theorem test_meets_HomingCompletes :
    Part.powerOn.head.frame = none ∧
    ((headPart .homing homeCmds).head.frame.map Frame.latched = some homeCmds ∧
      (headPart .homing homeCmds).head.slots.map Slot.held = homeCmds ∧ (headPart .homing homeCmds).jobs = []) ∧
    (decodeStatus 0x8F00 = .idle 0xF00 ∧ decodeStatus 0x800A = .idle 10 ∧ decodeStatus 0x8003 = .idle 3) ∧
    [(0x8F00 : BitVec 16), 0x800A, 0x8003].all (fun w => parityGood w && w != 0xFFFF) = true ∧
    (headPart .homing homeCmds).belt.present ≠ .parked := by decide +kernel

/-- At home with a job waiting: PREPARING for it. At its targets: ARMED. In the park positions: HEAD_PARKED. -/
theorem test_meets_HeadAtTargets :
    answers (exec (.frameEnd 0x8F00 0x800A 0x800A 0x800A 0x800A 0x8003)
        (withPart { headPart .homing homeCmds with sched.waiting := [job 1 9 5 .queued] }))
      (fun t => t.part.head.state == .preparing &&
        t.part.head.slots.map Slot.held == [.goto 5, .set 10, .set 2, .set 5, .set 10, .safe]) = true ∧
    answers (exec (.frameEnd 0x8005 0x800A 0x0002 0x8005 0x800A 0x8003)
        (withPart { headPart .preparing (armedCmds.set 5 .safe) with
          head.inHand := some { number := 1, target := 5, symbols := (job 1 9 5 .preparing).symbols }
          sched.current := some (job 1 9 5 .preparing) }))
      (fun t => t.part.head.state == .armed && t.part.sched.current == some (job 1 9 5 .armed)) = true ∧
    answers (exec (.frameEnd 0x0F01 0x800A 0x800A 0x800A 0x800A 0x8003)
        (withPart (headPart .parking [.park, .set 10, .set 10, .set 10, .set 10, .safe])))
      (fun t => t.part.head.state == .headParked) = true := by decide +kernel

/-- The head STRIKING for job 1 after the STRIKE frame, with a hammer count of 3. -/
def strikingPart : Part :=
  { headPart .striking armedCmds with head.hammerCount := some 3, sched.current := some (job 1 1 5 .striking) }

theorem test_meets_StrikeIsConfirmed :
    (strikingPart.head.frame.map Frame.latched = some armedCmds ∧ strikingPart.head.slots.length = 6 ∧
      armedCmds[5]? = some .arm ∧ (strikingPart.head.slots[5]?.map Slot.held) = some .arm ∧ strikingPart.sched.waiting = [] ∧
      strikingPart.setup.snapshot = none ∧ strikingPart.lots.closing = none ∧ strikingPart.recorder.outgoing.length < 8) ∧
    (decodeStatus 0x1000 = .busy ∧ decodeStatus 0x0004 = .idle (3 + 1)) ∧
    [(0x1000 : BitVec 16), 0x0004].all (fun w => parityGood w && w != 0xFFFF) = true ∧
    answers (exec (.frameEnd 0x1000 0x1000 0x1000 0x1000 0x1000 0x0004) (withPart strikingPart))
      (fun t => t.part.head.state == .ready && t.part.lots.openLot.tally.stamped == 1) = true ∧
    firstFault 0 (judgeAll .striking (some 3) 0 strikingPart.head.slots armedCmds
      [0x1000, 0x1000, 0x1000, 0x1000, 0x1000, 0x0004]) = none ∧
    answers (exec (.frameEnd 0x8005 0x800A 0x0002 0x8005 0x800A 0x0004)
        (withPart { strikingPart with sched.waiting := [job 2 9 7 .queued] }))
      (fun t => t.part.head.state == .preparing && t.part.sched.current == some (job 2 9 7 .preparing)) = true := by
  decide +kernel

theorem test_meets_HeadReset :
    Part.powerOn.head.slots.length = 6 ∧ strikingPart.sched.current.map Job.state = some .striking ∧
    (armedPart 9 .armed).sched.current.map Job.state = some .armed ∧
    strikingPart.lots.closing = none ∧ strikingPart.recorder.outgoing.length < 8 ∧
    answers (exec (.headReset 1) (withPart { Part.powerOn with sched.waiting := [job 2 9 5 .queued] }))
      (fun t => t.part.sched.current == some (job 2 9 5 .queued)) = true := by decide +kernel

/-- The halt timer just started does not expire (R156); one microsecond on, the command stands for the rest. The park order returns
an ARMED job to waiting (R128). -/
theorem test_meets_HaltAndPark :
    answers (exec .haltTimerExpiry (withPart (runningPart 0))) (fun t => t.part.belt == (runningPart 0).belt) = true ∧
    answers (exec .haltTimerExpiry (withPart (runningPart 1))) (fun t => t.part.belt == (haltedPart 0).belt) = true ∧
    (let p : Part := { armedPart 9 .armed with belt := (haltedPart 5).belt, sched.waiting := [job 2 8 5 .queued] }
     p.head.slots.length = 6 ∧
     answers (exec .parkTimerExpiry (withPart p))
      (fun t => t.part.head.state == .parking && t.part.jobs == [job 2 8 5 .queued, job 1 9 5 .queued]) = true) := by decide +kernel

theorem test_meets_BeltExpiries :
    (runningPart 0).belt.present = .running ∧ (haltedPart 0).belt.present = .halted ∧ Part.powerOn.belt.present = .parked ∧
    ({ haltedPart 0 with head.state := .armed } : Part).head.state = .armed ∧ (haltedPart 0).head.state = .unknown ∧
    firstOutOfRange ((stagedPowerOn.set 45 50).set 46 10) = none ∧
    answers (exec (.commit 1) (withPart { runningPart 50000 with setup.staged := stagedPowerOn.set 45 50 }))
      (fun t => t.part.belt == (haltedPart 0).belt) = true ∧
    answers (exec (.commit 1) (withPart { haltedPart 10000000 with setup.staged := stagedPowerOn.set 46 10 }))
      (fun t => t.part.belt.present == .parked) = true ∧
    answers (exec (.commit 1) (withPart { runningPart 49999 with setup.staged := stagedPowerOn.set 45 50 }))
      (fun t => t.part.belt == (runningPart 49999).belt) = true := by
  decide +kernel

theorem test_meets_RestartSignal :
    Part.powerOn.belt.present = .parked ∧ Part.powerOn.head.state = .unknown ∧
    ({ Part.powerOn with head.state := .faulted } : Part).head.state ≠ .headParked := by decide +kernel

/-- The state after reset with words queued at 0x100 and on, and this fairness count. -/
def queuedState (n fairness : Nat) : State :=
  { State.reset with
    path.queue := (List.range n).map (fun k => { addr := BitVec.ofNat 24 (0x100 + 4 * k), data := BitVec.ofNat 32 k })
    path.fairness := fairness }

/-- A burst of eight beats beside queued words, whole, left off after three beats, and gone on with. -/
theorem test_meets_UpstreamWrite :
    State.reset.ramOk ∧ (List.replicate 8 ({ enables := 0xF, data := 0 } : Beat)).length ≤ 8 ∧
    (let s := queuedState 8 7
     let x : Transaction := { write := true, start := 0x14, beats := List.replicate 8 { enables := 0xF, data := 7 } }
     (s.path.port = none ∧ s.path.queue.length = 8 ∧ s.path.fairness ≠ 8 ∧
       s.path.queue.all (fun w => !(beatAddrs x).contains w.addr) = true) ∧
     answers (exec (.upstreamTransaction (some x) none) s) (fun t => t.path.port == none && t.path.queue == s.path.queue) = true ∧
     answers (exec (.upstreamTransaction (some x) (some 3)) s) (fun t => t.path.port == some (.upstream x 3) &&
       answers (exec (.upstreamTransaction none none) t) (fun u =>
         answers (exec (.upstreamTransaction (some x) none) s) (fun v => u == v))) = true ∧
     (beatAddr 0x14 3).toNat = 0 ∧ (beatAddr 0x14 2).toNat = 0x1C) := by
  refine ⟨rfl, by decide, by decide +kernel⟩

/-- With 8 words queued and the count 8 the oldest goes first; a burst over the third word's address drains three; a part word and
a transaction left off on the port end first. -/
theorem test_meets_BeforeTheTransaction :
    (let x := oneBeat true 0x108 5
     answers (exec (.upstreamTransaction (some (oneBeat false 0 0)) none) (queuedState 8 8))
       (fun t => t.path.queue.length == 7 && t.path.fairness == 1) = true ∧
     answers (exec (.upstreamTransaction (some x) none) (queuedState 7 8))
       (fun t => t.path.queue.length == 4 && t.path.ram.readWord 0x108 == 5 && t.path.ram.readWord 0x104 == 1) = true ∧
     answers (exec (.upstreamTransaction (some x) none) { queuedState 0 0 with path.port := some (.partWord { addr := 0x40, data := 6 }) })
       (fun t => t.path.ram.readWord 0x40 == 6) = true ∧
     answers (exec (.upstreamTransaction (some x) none) { queuedState 0 0 with path.port := some (.upstream (oneBeat true 0x44 8) 0) })
       (fun t => t.path.ram.readWord 0x44 == 8) = true) := by decide +kernel

/-- Where a beat is handed over: the first and last word of the ring's slots and of the setup page, the words where two blocks of
the page meet, and one beat in a ring that overlaps the page. -/
theorem test_meets_HandOver :
    (ringPart.setup.guarded.inRowRing 0 = true ∧ ringPart.setup.guarded.inRowRing 0x3FC = true ∧
      ringPart.setup.guarded.inRowRing 0x400 = false) ∧
    (inPage 0x1FF000 0x1FEFFC = false ∧ inPage 0x1FF000 0x1FF000 = true ∧ inPage 0x1FF000 0x1FF1FC = true ∧
      inPage 0x1FF000 0x1FF200 = false) ∧
    ((0x12C / 4 = 75 ∧ 0x130 / 4 = 76 ∧ 0x13C / 4 = 79 ∧ 0x140 / 4 = 80 ∧ 0x1FC / 4 = 127) ∧ (0x1 : Lanes) ≠ 0) ∧
    (({ ringPart with setup.guarded.rowRingBase := 0x1FF000 } : Part).writeBeat 0x1FF000 0x1FF004 0xF 4).setup.staged.getD 1 0 = 4 ∧
    (({ ringPart with setup.guarded.rowRingBase := 0x1FF000 } : Part).writeBeat 0x1FF000 0x1FF004 0xF 4).intake.buffers.length = 1 ∧
    (Part.powerOn.writeBeat 0x1FF000 0x1FF130 0xF 7).recorder.heldC = 7 := by decide +kernel

/-- Seven words queued, the sixth at the word read. -/
theorem test_meets_ReadReturnsTheNewestPartWord :
    ∃ (pre post : List Posted) (w : Posted),
      (pre ++ w :: post).length < 8 ∧ w.addr.toNat % 4 = 0 ∧ (∀ v ∈ post, v.addr ≠ w.addr) :=
  ⟨List.replicate 5 { addr := 0x100, data := 1 }, [{ addr := 0x104, data := 3 }], { addr := 0x100, data := 2 }, by decide⟩

/-- A part word on the port with 14 or 15 words behind it. -/
theorem test_meets_PostedWordsInOrder :
    ((List.replicate 14 ({ addr := 0, data := 0 } : Posted)).length < 15 ∧
      (List.replicate 15 ({ addr := 0, data := 0 } : Posted)).length = 15) ∧
    State.reset.path.queue = [] ∧ Part.powerOn.dirty = 0 :: (List.range 47).map (· + 1) ∧
    Part.powerOn.recorder.inProgress = none ∧ State.reset.path.turn = .statusWriter ∧
    answers (exec .partWordComplete { State.reset with
        part := { recordPart with recorder.inProgress := some { record := .event .beltGap 5 2, next := 15 } }
        path.port := some (.partWord { addr := 0, data := 0 })
        path.queue := List.replicate 15 { addr := 0, data := 0 }
        path.turn := .recordWriter })
      (fun t => t.path.queue.getLast? == some { addr := 0x7C, data := 0 } && t.path.turn == .statusWriter) = true := by
  decide +kernel

/-- The words where the setup area's blocks meet, and every command code. -/
theorem test_meets_PageWrites :
    ((47 : BitVec 7).toNat < 48 ∧ 48 ≤ (48 : BitVec 7).toNat ∧ (76 : BitVec 7).toNat < 77) ∧ (0x7 : Lanes) ≠ 0xF ∧
    (47 : BitVec 6).toNat < 48 ∧
    (List.range 16).all (fun k => answers (exec (.setupWordWrite 79 0xF (BitVec.ofNat 32 (0x50000 + k))) State.reset)
      (fun t => t.part.setup.result.code == BitVec.ofNat 4 k && t.part.setup.result.tag == 5)) = true := by decide +kernel

/-- A staged copy with a new mask and slot count, in a part that is setup-quiet and in one that is not. -/
theorem test_meets_Commit :
    firstOutOfRange (stagedPowerOn.set 2 100) = some 2 ∧ firstOutOfRange stagedPowerOn = none ∧
    firstOutOfRange (stagedPowerOn.set 1 4) = none ∧
    (Guarded.ofStaged (stagedPowerOn.set 1 4)).slotCount ≠ Part.powerOn.setup.guarded.slotCount ∧
    (Guarded.ofStaged (stagedPowerOn.set 5 1)).mask ≠ Part.powerOn.setup.guarded.mask ∧
    Part.powerOn.setupQuiet = true ∧ twoHides.setupQuiet = false ∧ (readyPart 1).intake.queue ≠ [] ∧
    (let p : Part := { Part.powerOn with
       setup.snapshot := some { fields := { Guarded.powerOn with mask := 2 }, tag := 9 }, intake.autoMask := 5 }
     p.setupQuiet = true ∧ p.applySnapshotIfQuiet.recorder.outgoing = [.event .commitApplied 0 9] ∧
     p.applySnapshotIfQuiet.intake.autoMask = 0 ∧ p.applySnapshotIfQuiet.setup.guarded.mask = 2) := by decide +kernel

/-- Each range of the staged fields at the first value past a bound, and two words out of range at once. -/
theorem test_commit_bounds :
    [(0, 128), (1, 3), (1, 65), (2, 32), (2, 416), (4, 255), (20, 999), (20, 20001), (21, 999), (22, 501), (22, 0xFFFFFE0B),
      (23, 3), (23, 0x200), (24, 0x401), (24, 0x1104), (25, 31), (37, 1000), (39, 0x3000000), (40, 0x2000002),
      (42, 0x30000000), (43, 32), (44, 15), (44, 1025), (45, 49), (45, 5001), (46, 9), (46, 3601), (47, 199), (47, 5100),
      (47, 250)].all (fun c => firstOutOfRange (stagedPowerOn.set c.1 (BitVec.ofNat 32 c.2)) == some c.1) = true ∧
    firstOutOfRange ((stagedPowerOn.set 45 0).set 4 0) = some 4 := by decide +kernel

theorem test_meets_ClearStickyAndUnknown :
    8 ≤ (8 : BitVec 4).toNat ∧ ({ Part.powerOn with lots.sticky := 8 } : Part).lots.sticky ≠ 0 := by decide

/-- Queues of seven, of eight with a LOT record among them, and of eight LOT records. -/
theorem test_meets_OutgoingRecordQueue :
    (List.replicate 7 (Record.event .beltGap 0 0)).length < 8 ∧
    (8 ≤ (List.replicate 6 (Record.event .beltGap 0 0) ++ Record.event .beamStuck 0 0 :: [Record.lot (Lot.fresh 1 1)]).length ∧
      Record.isLot (.event .beamStuck 0 0) = false ∧ ∀ x ∈ [Record.lot (Lot.fresh 1 1)], x.isLot = true) ∧
    (∀ x ∈ List.replicate 8 (Record.lot (Lot.fresh 1 1)), x.isLot = true) := by decide +kernel

theorem test_meets_StatusWordPost :
    Part.powerOn.dirty = 0 :: (List.range 47).map (· + 1) ∧ State.reset.path.placesTaken < 16 ∧
    16 ≤ ({ State.reset with path.queue := List.replicate 16 { addr := 0, data := 0 } } : State).path.placesTaken ∧
    Part.powerOn.dirty.Pairwise (· < ·) ∧
    ((List.range 48).map Part.powerOn.statusWord).drop 1 =
      [0xE, 0, 1] ++ List.replicate 44 0 := by decide +kernel

/-- The ring of 16 with P at 14 (one place left) and at 15 (full), C at 0. -/
theorem test_meets_RecordWriter :
    (recordPart.recorder.inProgress = none ∧ recordPart.setup.unguarded.ringSize = 16) ∧
    ((14 + 16 - 0) % 16 ≠ 16 - 1 ∧ (15 + 16 - 0) % 16 = 16 - 1) ∧
    ({ record := .event .beltGap 0 0, next := 15 } : Outgoing).next < 16 ∧
    16 ≤ ({ record := .event .beltGap 0 0, next := 16 } : Outgoing).next ∧
    (let i := (info 1 0)
     i.merges < 65536 ∧ i.minCol < 65536 ∧ i.maxCol < 65536 ∧ i.holesFilled < 65536 ∧ i.holesLarge < 65536 ∧
       i.holesBreached < 65536 ∧ i.grade = .ungraded ∧ i.symbols = some { w1 := 10, w2 := 2, w3 := 5, w4 := 10 }) ∧
    (Tally.empty.small < 65536 ∧ Tally.empty.bands = List.replicate 8 0) ∧
    (headFaultArg 5 (.module 0xABC) = 0x0ABC0005 ∧ headFaultArg 2 .mismatch = 0x302) ∧
    answers (exec (.commit 1) (withPart { recordPart with
        recorder.p := 3, recorder.inProgress := some { record := .event .beltGap 5 2, next := 4 } }))
      (fun t => t.part.recorder.outgoing == [] && t.part.recorder.p == 0 && t.part.recorder.dropped == 2) = true := by
  decide +kernel

end Sys2Proof.Tests
end

/-! ## Settling row intake's statements: power-on reset, beats that are ignored -/

namespace Sys2Proof.Machine

/-! ### Power-on reset -/

/-- Settles O7: the reset state is the power-on part on an empty RAM and a free path. -/
theorem resetMeetsEveryBound : Obligations.ResetMeetsEveryBound :=
  ⟨rfl, ⟨by decide, by decide⟩, Part.powerOn_ok 0⟩

/-- The staged copy of power-on reset passes validation, whatever the free constants: neither ring is on. -/
theorem firstOutOfRange_stagedPowerOn : firstOutOfRange stagedPowerOn = none := by decide

/-- The staged copy of power-on reset spells the guarded settings in force (11.2). -/
theorem ofStaged_stagedPowerOn_guarded : Guarded.ofStaged stagedPowerOn = Guarded.powerOn := by decide +kernel

/-- The staged copy of power-on reset spells the unguarded settings in force (11.2). -/
theorem ofStaged_stagedPowerOn_unguarded : Unguarded.ofStaged stagedPowerOn = Unguarded.powerOn := by decide

/-- Settles O9: the reset assigns every block; the setup page's clause is the three facts on the staged copy. -/
theorem powerOnReset : Obligations.PowerOnReset :=
  ⟨fun _ _ => rfl, rfl, rfl, rfl, rfl, rfl, rfl, rfl,
    ⟨rfl, rfl, rfl, rfl, firstOutOfRange_stagedPowerOn, ofStaged_stagedPowerOn_guarded, ofStaged_stagedPowerOn_unguarded⟩,
    rfl, rfl⟩

/-! ### Ignored beats -/

/-- A change that leaves the part leaves the state. -/
theorem State.onPart_of_eq {s : State} {f : Part → Part} (h : f s.part = s.part) : s.onPart f = s := by
  simp [State.onPart, h]

/-- Settles O12: the guards of R1 to R5 fail, so the beat leaves the part. -/
theorem ignoredBeatsChangeNothing : Obligations.IgnoredBeatsChangeNothing := by
  intro slot offset en data s
  refine ⟨fun h => congrArg _ (State.onPart_of_eq (if_neg ?_)), fun h => congrArg _ (State.onPart_of_eq (if_neg ?_))⟩
  · rintro ⟨hslot, hlow, hhigh, hen⟩
    obtain h | rfl | h | h := h
    · exact absurd (of_decide_eq_true hslot) (by omega)
    · exact absurd hlow (by decide)
    · exact absurd hhigh (by simpa [wordsPerSubRow] using h)
    · exact hen h
  · rintro ⟨hslot, hen, hmark⟩
    obtain h | h | h := h
    · exact absurd (of_decide_eq_true hslot) (by omega)
    · exact h hen
    · exact h hmark

end Sys2Proof.Machine

/-! ## Records, lanes and the assembly buffers -/

namespace Sys2Proof.Machine

/-! ### The outgoing record queue -/

section Records

variable (p : Part)

/-- With a free place a record joins the queue and nothing else happens (R187). -/
theorem Part.emit_of_lt (r : Record) (h : p.recorder.outgoing.length < 8) :
    p.emit r = { p with recorder.outgoing := p.recorder.outgoing ++ [r] } := if_pos h

/-- With a free place an event joins the queue. -/
theorem Part.raise_outgoing (k : EventKind) (a : Word) (h : p.recorder.outgoing.length < 8) :
    (p.raise k a).recorder.outgoing = p.recorder.outgoing ++ [.event k p.tracker.rowIndex a] := by
  rw [Part.raise, Part.emit_of_lt p _ h]

/-- A drop is counted in the record writer and shows nowhere else there (R187). -/
@[simp] theorem Part.dropRecord_recorder (r : Record) :
    (p.dropRecord r).recorder = { p.recorder with dropped := p.recorder.dropped + 1 } := by
  unfold Part.dropRecord; cases r <;> simp

theorem Part.dropRecord_withIntake (i : Intake) (r : Record) :
    ({ p with intake := i } : Part).dropRecord r = { p.dropRecord r with intake := i } := by
  unfold Part.dropRecord Part.flagDropped
  cases r <;> dsimp only [Part.mark] <;> split <;> rfl

/-- The record writer neither reads nor changes row intake. -/
theorem Part.emit_withIntake (i : Intake) (r : Record) :
    ({ p with intake := i } : Part).emit r = { p.emit r with intake := i } := by
  unfold Part.emit
  dsimp only
  split
  · rfl
  · split
    · split
      · next old rest _ => exact Part.dropRecord_withIntake { p with recorder.outgoing := rest ++ [r] } i old
      · exact Part.dropRecord_withIntake p i r
    · exact Part.dropRecord_withIntake p i r

theorem Part.raise_withIntake (i : Intake) (k : EventKind) (a : Word) :
    ({ p with intake := i } : Part).raise k a = { p.raise k a with intake := i } := Part.emit_withIntake p i _

/-- What a record does to the record writer depends on the record writer alone. -/
theorem Part.emit_recorder_congr {p q : Part} (r : Record) (h : p.recorder = q.recorder) :
    (p.emit r).recorder = (q.emit r).recorder := by
  unfold Part.emit
  rw [h]
  (repeat' split) <;> simp [h]

end Records

/-! ### Byte lanes -/

/-- Each bit of the mask of the enabled lanes is its lane's enable. -/
theorem getLsbD_laneMask : ∀ (en : Lanes) (l : Fin 4) (i : Fin 8),
    (laneMask en).getLsbD (8 * l.val + i.val) = en.getLsbD l.val := by
  decide +kernel

/-- A merge takes each enabled lane from the beat and leaves the others (R3, R175, R176, R186). -/
theorem laneByte_mergeLanes (old new : Word) (en : Lanes) (l : Nat) (hl : l < 4) :
    laneByte (mergeLanes old new en) l = if en.getLsbD l then laneByte new l else laneByte old l := by
  apply BitVec.eq_of_getLsbD_eq
  intro i hi
  have hmask := getLsbD_laneMask en ⟨l, hl⟩ ⟨i, hi⟩
  have hbit : 8 * l + i < 32 := by omega
  rw [BitVec.getLsbD_eq_getElem hbit] at hmask
  cases hen : en.getLsbD l <;> simp [laneByte, mergeLanes, hmask, hen, hi, hbit]

/-- All four written flags of a beam word are set. -/
theorem written_eq_all_iff (w : Lanes) : w = 0xF ↔ ∀ l, l < 4 → w.getLsbD l = true := by
  refine ⟨fun h l hl => ?_, fun h => BitVec.eq_of_getLsbD_eq fun l hl => ?_⟩
  · subst h; interval_cases l <;> rfl
  · rw [h l hl]; interval_cases l <;> rfl

/-! ### Assembly buffers (1.2) -/

theorem Buffer.complete_iff (b : Buffer) :
    b.complete = true ↔ ∀ w ∈ b.words, ∀ l, l < 4 → w.written.getLsbD l = true := by
  simp only [Buffer.complete, List.all_eq_true, decide_eq_true_eq, written_eq_all_iff]

/-- What a merge leaves and what it does to the word it meets, lane by lane (R3). -/
theorem Buffer.merge_words (b : Buffer) (i : Nat) (en : Lanes) (data : Word) (j : Nat) (w : BufWord)
    (hw : b.words[j]? = some w) :
    (b.merge i en data).words[j]? = some (if i = j then w.merge en data else w) := by
  by_cases h : i = j <;> simp [Buffer.merge, hw, h]

theorem BufWord.merge_lane (w : BufWord) (en : Lanes) (data : Word) (l : Nat) (hl : l < 4) :
    laneByte (w.merge en data).data l = (if en.getLsbD l then laneByte data l else laneByte w.data l) ∧
      (w.merge en data).written.getLsbD l = (w.written.getLsbD l || en.getLsbD l) :=
  ⟨laneByte_mergeLanes _ _ _ _ hl, by simp [BufWord.merge]⟩

/-- The beat's merge into the buffer of one slot among those HELD. -/
def mergeAt (slot : BitVec 6) (i : Nat) (en : Lanes) (data : Word) (bs : List Buffer) : List Buffer :=
  bs.map (fun b => if b.slot = slot then b.merge i en data else b)

theorem mergeAt_of_ne {slot : BitVec 6} {bs : List Buffer} (h : ∀ b ∈ bs, b.slot ≠ slot) (i : Nat) (en : Lanes) (data : Word) :
    mergeAt slot i en data bs = bs :=
  (List.map_congr_left fun b hb => if_neg (h b hb)).trans (List.map_id' bs)

/-- A fresh buffer at the end takes the beat, the buffers of other slots do not. -/
theorem mergeAt_append_fresh {slot : BitVec 6} {bs : List Buffer} (h : ∀ b ∈ bs, b.slot ≠ slot) (beams i : Nat) (en : Lanes)
    (data : Word) :
    mergeAt slot i en data (bs ++ [Buffer.fresh slot beams]) = bs ++ [(Buffer.fresh slot beams).merge i en data] := by
  rw [mergeAt, List.map_append, ← mergeAt, mergeAt_of_ne h]
  simp [Buffer.fresh]

section Capture

variable (p : Part) (slot : BitVec 6)

theorem Part.bufferFor_eq_none (h : ∀ b ∈ p.intake.buffers, b.slot ≠ slot) : p.bufferFor slot = none :=
  List.find?_eq_none.2 fun b hb => by simpa using h b hb

theorem Part.bufferFor_isSome (h : ∃ b ∈ p.intake.buffers, b.slot = slot) : ∃ b, p.bufferFor slot = some b :=
  Option.isSome_iff_exists.1 (List.find?_isSome.2 (by simpa using h))

/-- R3: a slot with a HELD buffer needs none. -/
theorem Part.ensureBuffer_held (h : ∃ b ∈ p.intake.buffers, b.slot = slot) : p.ensureBuffer slot = p := by
  obtain ⟨b, hb⟩ := p.bufferFor_isSome slot h
  unfold Part.ensureBuffer
  rw [hb]

/-- R4: with at most one buffer HELD nothing is abandoned. -/
theorem Part.evict_of_lt (h : p.intake.buffers.length < 2) : p.evict = p := by
  unfold Part.evict
  split
  · next e => rw [e] at h; simp at h
  · rfl

/-- R3, R4: a slot without a buffer gets a fresh one behind the others, after room is made. -/
theorem Part.ensureBuffer_fresh (h : ∀ b ∈ p.intake.buffers, b.slot ≠ slot) :
    p.ensureBuffer slot = { p.evict with
      intake.buffers := p.evict.intake.buffers ++ [Buffer.fresh slot p.evict.setup.guarded.beams] } := by
  unfold Part.ensureBuffer
  rw [p.bufferFor_eq_none slot h]

theorem Part.countDropped_one :
    p.countDropped 1 = { p with intake.dropped := p.intake.dropped + 1 }.mark wDropped := rfl

/-- R4: with both buffers HELD the older is abandoned, with its event and its count. -/
theorem Part.evict_both {a b : Buffer} (h : p.intake.buffers = [a, b]) :
    p.evict = { (p.raise .rowIncomplete (a.slot.setWidth 32)).countDropped 1 with intake.buffers := [b] } := by
  unfold Part.evict
  rw [h]
  dsimp only
  rw [Part.rowIncomplete, Part.raise_withIntake, Part.countDropped_one, Part.countDropped_one, Part.raise_intake]
  rfl

/-- R2, R3: what a captured beat does. -/
theorem Part.beamWord_captured (offset : BitVec 6) (en : Lanes) (data : Word)
    (hslot : slot.toNat < p.setup.guarded.slotCount) (hlow : 1 ≤ offset.toNat)
    (hhigh : offset.toNat ≤ 3 * (p.setup.guarded.beams / 32)) (hen : en ≠ 0) :
    p.beamWord slot offset en data = { p.ensureBuffer slot with
      intake.buffers := mergeAt slot (offset.toNat - 1) en data (p.ensureBuffer slot).intake.buffers } :=
  if_pos ⟨decide_eq_true hslot, hlow, hhigh, hen⟩

end Capture

/-- Settles O13, by the three ways a slot can come to its buffer. -/
theorem beamWordIsCaptured : Obligations.BeamWordIsCaptured := by
  refine ⟨?_, fun slot beams => ⟨rfl, by simp [Buffer.fresh, wordsPerSubRow], fun w hw => ?_⟩, ?_, Buffer.complete_iff,
    laneByte_mergeLanes⟩
  · intro slot offset en data s hslot hlow hhigh hen
    dsimp only
    have hexec : exec (.beamWordWrite slot offset en data) s = .next { s with part := { s.part.ensureBuffer slot with
        intake.buffers := mergeAt slot (offset.toNat - 1) en data (s.part.ensureBuffer slot).intake.buffers } } := by
      rw [exec_beamWordWrite, execBeamWordWrite, State.onPart, Part.beamWord_captured _ _ _ _ _ hslot hlow hhigh hen]
    refine ⟨fun hheld => ?_, fun hfree hroom => ?_, fun a b hboth ha hb => ⟨?_, Part.raise_outgoing _ _ _, ?_⟩⟩
    · rw [hexec, Part.ensureBuffer_held _ _ hheld]; rfl
    · rw [hexec, Part.ensureBuffer_fresh _ _ hfree, Part.evict_of_lt _ hroom, mergeAt_append_fresh hfree]
    · have hfree : ∀ x ∈ s.part.intake.buffers, x.slot ≠ slot := by simp [hboth, ha, hb]
      rw [hexec, Part.ensureBuffer_fresh _ _ hfree, Part.evict_both _ hboth, mergeAt_append_fresh (by simpa using hb)]
      simp [Part.countDropped_one]
    · simp [Part.countDropped_one]
  · rw [(List.mem_replicate.1 hw).2]
  · intro b i en data
    refine ⟨rfl, by simp [Buffer.merge], fun j w hw => ⟨_, Buffer.merge_words b i en data j w hw, fun hji => ?_, ?_⟩⟩
    · exact if_neg (Ne.symm hji)
    · rintro rfl l hl
      simpa using w.merge_lane en data l hl

/-! ### A header of an incomplete slot (R5) -/

/-- R5: a taken header that does not find a complete buffer drops the slot. -/
theorem Part.header_incomplete (p : Part) (slot : BitVec 6) (data : Word) (hslot : slot.toNat < p.setup.guarded.slotCount)
    (hmark : data.extractLsb' 16 8 = (0xC6 : Byte)) (hb : ∀ b, p.bufferFor slot = some b → b.complete = false) :
    p.header slot 0xF data = p.dropHeader slot (data.getLsbD 24) := by
  rw [Part.header, if_pos ⟨decide_eq_true hslot, rfl, hmark⟩]
  split
  · next b h => rw [if_neg (by simp [hb b h])]; rfl
  · rfl

/-- R5: what a dropped slot leaves in row intake. -/
theorem Part.dropHeader_intake (p : Part) (slot : BitVec 6) (sync : Bool) :
    (p.dropHeader slot sync).intake = { p.intake with
      buffers := p.intake.buffers.filter (fun b => decide (b.slot ≠ slot))
      dropped := p.intake.dropped + 1
      syncPending := p.intake.syncPending || sync } := by
  unfold Part.dropHeader Part.rowIncomplete
  cases sync <;> simp [Part.countDropped_one, Part.freeBuffer]

/-- A dropped slot is reported, and counted, and freed; all else stays. -/
theorem Part.dropHeader_frame (p : Part) (slot : BitVec 6) (sync : Bool) :
    let q := p.dropHeader slot sync
    q.tracker = p.tracker ∧ q.belt = p.belt ∧ q.head = p.head ∧ q.setup = p.setup ∧
      q.recorder = (p.raise .rowIncomplete (slot.setWidth 32)).recorder := by
  have hrec : ((p.freeBuffer slot).raise .rowIncomplete (slot.setWidth 32)).recorder =
      (p.raise .rowIncomplete (slot.setWidth 32)).recorder := by rw [Part.freeBuffer, Part.raise_withIntake]
  unfold Part.dropHeader Part.rowIncomplete
  cases sync <;> simp [Part.countDropped_one, hrec] <;> simp [Part.freeBuffer]

/-- Settles O14. -/
theorem headerOfAnIncompleteSlot : Obligations.HeaderOfAnIncompleteSlot := by
  intro slot data s hslot hmark hb
  obtain ⟨htracker, hbelt, hhead, hsetup, hrec⟩ := s.part.dropHeader_frame slot (data.getLsbD 24)
  have hintake := s.part.dropHeader_intake slot (data.getLsbD 24)
  refine ⟨_, rfl, rfl, ?_⟩
  simp only [State.onPart_part, Part.header_incomplete s.part slot data hslot hmark hb, hintake, htracker, hbelt, hhead,
    hsetup, hrec, true_and]
  exact Part.raise_outgoing _ _ _

end Sys2Proof.Machine

/-! ## Conditioning and the sequence check -/

namespace Sys2Proof.Machine

/-! ### What the restart signal and an accepted row change -/

section Accept

variable (p : Part)

@[simp] theorem Part.wakeOrder_intake : p.wakeOrder.intake = p.intake := by
  unfold Part.wakeOrder; split <;> simp [Part.enterHoming, Part.currentAtHoming]

@[simp] theorem Part.wakeOrder_recorder : p.wakeOrder.recorder = p.recorder := by
  unfold Part.wakeOrder; split <;> simp [Part.enterHoming, Part.currentAtHoming]

@[simp] theorem Part.restartSignal_intake : p.restartSignal.intake = p.intake := by
  unfold Part.restartSignal; split <;> simp

@[simp] theorem Part.restartSignal_recorder : p.restartSignal.recorder = p.recorder := by
  unfold Part.restartSignal; split <;> simp

/-- R159: after a restart signal the belt is RUNNING and the halt timer has just been started. -/
theorem Part.restartSignal_running : p.restartSignal.belt.present = .running ∧ p.restartSignal.belt.halt = some 0 := by
  unfold Part.restartSignal
  split
  · next h => exact ⟨h, rfl⟩
  · exact ⟨rfl, rfl⟩
  · rw [Part.wakeOrder_belt]; exact ⟨rfl, rfl⟩

@[simp] theorem Part.acceptRow_intake (seq : Half) :
    (p.acceptRow seq).intake = { p.intake with expected := seq + 1, accepted := p.intake.accepted + 1 } := by
  simp [Part.acceptRow]

@[simp] theorem Part.acceptRow_recorder (seq : Half) : (p.acceptRow seq).recorder = p.recorder := by simp [Part.acceptRow]

theorem Part.acceptRow_running (seq : Half) :
    (p.acceptRow seq).belt.present = .running ∧ (p.acceptRow seq).belt.halt = some 0 := Part.restartSignal_running _

@[simp] theorem Part.queueRow_intake (r : CondRow) :
    (p.queueRow r).intake = { p.intake with queue := p.intake.queue ++ [r] } := rfl

/-- R10: a row dropped for overrun is counted, and nothing else of row intake changes. -/
@[simp] theorem Part.overrun_intake (seq : Half) :
    (p.overrun seq).intake = { p.intake with dropped := p.intake.dropped + 1 } := by
  simp [Part.overrun, Part.countDropped_one]

@[simp] theorem Part.overrun_belt (seq : Half) : (p.overrun seq).belt = p.belt := by
  simp [Part.overrun, Part.countDropped_one]

@[simp] theorem Part.overrun_recorder (seq : Half) :
    (p.overrun seq).recorder = (p.raise .rowOverrun (seq.setWidth 32)).recorder := by
  simp [Part.overrun, Part.countDropped_one]

end Accept

/-! ### Conditioning -/

section Conditioning

variable (p : Part) (r : SubRows)

/-- The beams that join the auto-mask when `p` conditions the sub-rows `r` (R14). -/
def Part.joining : List Nat :=
  newlyStuck p.setup.guarded.mask p.intake.autoMask r.majority p.setup.guarded.beams p.setup.guarded.stuckLimit
    (stuckCounts p.setup.guarded.mask r.majority p.setup.guarded.beams p.intake.stuck)

/-- The conditioned part: counters and the last row first, then one beam after another joins the auto-mask. -/
theorem Part.condition_snd : (p.condition r).2 = (p.joining r).foldl Part.stickBeam { p with
    intake.stuck := stuckCounts p.setup.guarded.mask r.majority p.setup.guarded.beams p.intake.stuck
    intake.lastRow := (p.condition r).1.covered } := rfl

theorem Part.stickBeam_intake (b : Nat) :
    (p.stickBeam b).intake = { p.intake with autoMask := p.intake.autoMask ||| ((1 : Beams) <<< b) } := by
  simp [Part.stickBeam]

/-- The beams that join change nothing of row intake but the auto-mask. -/
theorem Part.stickBeams_intake (bs : List Nat) : (bs.foldl Part.stickBeam p).intake =
    { p.intake with autoMask := bs.foldl (fun m b => m ||| ((1 : Beams) <<< b)) p.intake.autoMask } := by
  induction bs generalizing p with
  | nil => rfl
  | cons b bs ih => rw [List.foldl_cons, ih, Part.stickBeam_intake]; rfl

/-- Conditioning changes row intake in three places: the counters, the last row, the auto-mask. -/
theorem Part.condition_intake : (p.condition r).2.intake = { p.intake with
    stuck := stuckCounts p.setup.guarded.mask r.majority p.setup.guarded.beams p.intake.stuck
    lastRow := (p.condition r).1.covered
    autoMask := (p.joining r).foldl (fun m b => m ||| ((1 : Beams) <<< b)) p.intake.autoMask } := by
  rw [Part.condition_snd, Part.stickBeams_intake]

@[simp] theorem Part.giveNotice_rowIndex : p.giveNotice.tracker.rowIndex = p.tracker.rowIndex := by
  unfold Part.giveNotice; split <;> simp

@[simp] theorem Part.giveNotice_pass : p.giveNotice.tracker.pass = p.tracker.pass := by
  unfold Part.giveNotice; split <;> simp

@[simp] theorem Part.stickBeam_rowIndex (b : Nat) : (p.stickBeam b).tracker.rowIndex = p.tracker.rowIndex := by
  simp [Part.stickBeam]

@[simp] theorem Part.condition_rowIndex : (p.condition r).2.tracker.rowIndex = p.tracker.rowIndex := by
  rw [Part.condition_snd]
  exact foldl_keep (f := fun q : Part => q.tracker.rowIndex) (by simp) _ _

/-- The two parts condition a row alike: the settings, counters and records that conditioning reads are the same. -/
structure Part.ConditionsLike (p q : Part) : Prop where
  guarded : p.setup.guarded = q.setup.guarded
  autoMask : p.intake.autoMask = q.intake.autoMask
  stuck : p.intake.stuck = q.intake.stuck
  recorder : p.recorder = q.recorder
  rowIndex : p.tracker.rowIndex = q.tracker.rowIndex

theorem Part.stickBeams_recorder_congr {p q : Part} (hrec : p.recorder = q.recorder)
    (hrow : p.tracker.rowIndex = q.tracker.rowIndex) (bs : List Nat) :
    (bs.foldl Part.stickBeam p).recorder = (bs.foldl Part.stickBeam q).recorder := by
  induction bs generalizing p q with
  | nil => exact hrec
  | cons b bs ih =>
    refine ih ?_ (by simp [hrow])
    simp only [Part.stickBeam, Part.giveNotice_recorder, Part.raise, hrow]
    exact Part.emit_recorder_congr _ hrec

theorem Part.ConditionsLike.row {p q : Part} (h : p.ConditionsLike q) : (p.condition r).1 = (q.condition r).1 := by
  simp only [Part.condition, h.guarded, h.autoMask]

theorem Part.ConditionsLike.recorder_condition {p q : Part} (h : p.ConditionsLike q) :
    (p.condition r).2.recorder = (q.condition r).2.recorder := by
  have hjoin : p.joining r = q.joining r := by simp only [Part.joining, h.guarded, h.autoMask, h.stuck]
  rw [Part.condition_snd, Part.condition_snd, hjoin]
  refine Part.stickBeams_recorder_congr ?_ ?_ _
  · exact h.recorder
  · exact h.rowIndex

end Conditioning

/-! ### The ways of the sequence check (R6 to R10) -/

section Sequence

variable (p : Part) (seq : Half) (r : SubRows)

/-- R5: a taken header that finds its slot complete frees the buffer and hands its row to the sequence check. -/
theorem Part.header_complete (slot : BitVec 6) (data : Word) (b : Buffer) (hslot : slot.toNat < p.setup.guarded.slotCount)
    (hmark : data.extractLsb' 16 8 = (0xC6 : Byte)) (hb : p.bufferFor slot = some b) (hc : b.complete = true) :
    p.header slot 0xF data = (p.freeBuffer slot).completedRow (data.getLsbD 24) (data.extractLsb' 0 16)
      (subRowsOf b.words p.setup.guarded.beams) := by
  rw [Part.header, if_pos ⟨decide_eq_true hslot, rfl, hmark⟩, hb]
  dsimp only
  rw [if_pos hc]
  rfl

theorem Part.freeRows_eq_zero_iff : p.freeRows = 0 ↔ 4 ≤ p.intake.queue.length := by
  unfold Part.freeRows; omega

/-- What every acceptance of a row does, whichever way it takes (R6 to R9, R11). -/
structure Part.Accepts (q : Part) : Prop where
  expected : q.intake.expected = seq + 1
  accepted : q.intake.accepted = p.intake.accepted + 1
  lastRow : q.intake.lastRow = (p.condition r).1.covered
  dropped : q.intake.dropped = p.intake.dropped
  present : q.belt.present = .running
  halt : q.belt.halt = some 0

theorem Part.rowInSequence_accepts : p.Accepts seq r (p.rowInSequence seq r) := by
  obtain ⟨hpresent, hhalt⟩ := ((p.condition r).2.queueRow (p.condition r).1).acceptRow_running seq
  exact ⟨by simp [Part.rowInSequence], by simp [Part.rowInSequence, Part.condition_intake],
    by simp [Part.rowInSequence, Part.condition_intake], by simp [Part.rowInSequence, Part.condition_intake], hpresent, hhalt⟩

theorem Part.beltGapRow_accepts (d : Nat) : p.Accepts seq r (p.beltGapRow d seq r) := by
  obtain ⟨hpresent, hhalt⟩ := (((p.condition r).2.queueRow { (p.condition r).1 with trunc := true }).raise .beltGap
    (BitVec.ofNat 32 d)).acceptRow_running seq
  exact ⟨by simp [Part.beltGapRow], by simp [Part.beltGapRow, Part.condition_intake],
    by simp [Part.beltGapRow, Part.condition_intake], by simp [Part.beltGapRow, Part.condition_intake], hpresent, hhalt⟩

/-- R8: the part that has queued the `d` synthesized rows of a bridge. -/
def Part.bridged (d : Nat) : Part := { p with
  intake.queue := p.intake.queue ++ List.replicate d p.gapRow
  intake.synthesized := p.intake.synthesized + BitVec.ofNat 32 d }.mark wSynthesized

theorem Part.bridgedRow_eq (d : Nat) : p.bridgedRow d seq r = (p.bridged d).rowInSequence seq r := rfl

theorem Part.bridged_conditionsLike (d : Nat) : (p.bridged d).ConditionsLike p := ⟨rfl, rfl, rfl, rfl, rfl⟩

theorem Part.bridgedRow_accepts (d : Nat) : p.Accepts seq r (p.bridgedRow d seq r) := by
  obtain ⟨hexpected, haccepted, hlast, hdropped, hpresent, hhalt⟩ := (p.bridged d).rowInSequence_accepts seq r
  exact ⟨hexpected, haccepted, hlast.trans (by rw [(p.bridged_conditionsLike d).row]), hdropped, hpresent, hhalt⟩

/-- R7: a row in sequence is queued without marks and raises no event of its own. -/
theorem Part.rowInSequence_queued :
    (p.rowInSequence seq r).intake.queue = p.intake.queue ++ [(p.condition r).1] ∧
      (p.rowInSequence seq r).intake.synthesized = p.intake.synthesized ∧
      (p.rowInSequence seq r).recorder = (p.condition r).2.recorder := by
  simp [Part.rowInSequence, Part.condition_intake]

/-- R8: a bridge queues the copies of the last row and then the row. -/
theorem Part.bridgedRow_queued (d : Nat) :
    (p.bridgedRow d seq r).intake.queue = p.intake.queue ++ List.replicate d p.gapRow ++ [(p.condition r).1] ∧
      (p.bridgedRow d seq r).intake.synthesized = p.intake.synthesized + BitVec.ofNat 32 d ∧
      (p.bridgedRow d seq r).recorder = (p.condition r).2.recorder := by
  obtain ⟨hqueue, hsynth, hrec⟩ := (p.bridged d).rowInSequence_queued seq r
  rw [(p.bridged_conditionsLike d).row] at hqueue
  rw [(p.bridged_conditionsLike d).recorder_condition] at hrec
  exact ⟨hqueue, hsynth, hrec⟩

/-- R9: a belt gap queues the row with the truncate mark and raises BELT_GAP after the events of its conditioning. -/
theorem Part.beltGapRow_queued (d : Nat) :
    (p.beltGapRow d seq r).intake.queue = p.intake.queue ++ [{ (p.condition r).1 with trunc := true }] ∧
      (p.beltGapRow d seq r).intake.synthesized = p.intake.synthesized ∧
      ((p.condition r).2.recorder.outgoing.length < 8 → (p.beltGapRow d seq r).recorder.outgoing =
        (p.condition r).2.recorder.outgoing ++ [.event .beltGap p.tracker.rowIndex (BitVec.ofNat 32 d)]) := by
  refine ⟨by simp [Part.beltGapRow], by simp [Part.beltGapRow, Part.condition_intake], fun h => ?_⟩
  rw [Part.beltGapRow, Part.acceptRow_recorder, Part.raise_outgoing _ _ _ (by simpa using h)]
  simp

/-- Acceptance in sequence, over a bridge or over a gap leaves the sync-pending flag. -/
theorem Part.completedRow_syncPending (h : p.intake.syncPending = false) :
    (p.completedRow false seq r).intake.syncPending = false := by
  unfold Part.completedRow Part.oldRow Part.rowInSequence Part.bridgedRow Part.rowInSequence Part.beltGapRow
  simp only [h, Bool.or_self, Bool.false_eq_true, if_false]
  (repeat' split) <;> simp [h, Part.condition_intake]

/-- The distance of a row's sequence number from the expected one (R7). -/
def Part.distance : Nat := (seq - p.intake.expected).toNat

variable {p} (hs : p.intake.syncPending = false)
include hs

/-- The sequence check of a row that is no sync row, by its distance (R7). -/
theorem Part.completedRow_check : p.completedRow false seq r =
    if 32768 ≤ p.distance seq then p.oldRow
    else if p.distance seq = 0 then (if p.freeRows = 0 then p.overrun seq else p.rowInSequence seq r)
    else if p.distance seq ≤ p.setup.unguarded.gapBridge ∧ p.distance seq + 1 ≤ p.freeRows then
      p.bridgedRow (p.distance seq) seq r
    else if p.freeRows = 0 then p.overrun seq
    else p.beltGapRow (p.distance seq) seq r := by
  rw [Part.completedRow, hs]; rfl

/-- R7: a row 32768 or more ahead is an old one. -/
theorem Part.completedRow_old (hd : 32768 ≤ p.distance seq) : p.completedRow false seq r = p.oldRow := by
  rw [Part.completedRow_check seq r hs, if_pos hd]

/-- R7. -/
theorem Part.completedRow_inSequence (hd : p.distance seq = 0) (hq : p.intake.queue.length < 4) :
    p.completedRow false seq r = p.rowInSequence seq r := by
  simp [Part.completedRow_check seq r hs, hd, Part.freeRows_eq_zero_iff, hq]

/-- R8. -/
theorem Part.completedRow_bridged (hd : 1 ≤ p.distance seq) (hd' : p.distance seq < 32768)
    (hb : p.distance seq ≤ p.setup.unguarded.gapBridge) (hq : p.intake.queue.length + p.distance seq + 1 ≤ 4) :
    p.completedRow false seq r = p.bridgedRow (p.distance seq) seq r := by
  have hfree : p.distance seq + 1 ≤ p.freeRows := by unfold Part.freeRows; omega
  rw [Part.completedRow_check seq r hs, if_neg (by omega), if_neg (by omega), if_pos ⟨hb, hfree⟩]

/-- R9. -/
theorem Part.completedRow_gap (hd : 1 ≤ p.distance seq) (hd' : p.distance seq < 32768)
    (hb : p.setup.unguarded.gapBridge < p.distance seq ∨ 4 < p.intake.queue.length + p.distance seq + 1)
    (hq : p.intake.queue.length < 4) :
    p.completedRow false seq r = p.beltGapRow (p.distance seq) seq r := by
  have hno : ¬ (p.distance seq ≤ p.setup.unguarded.gapBridge ∧ p.distance seq + 1 ≤ p.freeRows) := by
    unfold Part.freeRows; omega
  rw [Part.completedRow_check seq r hs, if_neg (by omega), if_neg (by omega), if_neg hno,
    if_neg (by rw [p.freeRows_eq_zero_iff]; omega)]

/-- R10. -/
theorem Part.completedRow_overrun (hd : p.distance seq < 32768) (hq : 4 ≤ p.intake.queue.length) :
    p.completedRow false seq r = p.overrun seq := by
  have hfree : p.freeRows = 0 := p.freeRows_eq_zero_iff.2 hq
  rw [Part.completedRow_check seq r hs, if_neg (by omega), hfree]
  simp

/-- Whatever way a row that is not old is accepted, the queue having a place for it. -/
theorem Part.completedRow_accepts (hd : p.distance seq < 32768) (hq : p.intake.queue.length < 4) :
    p.Accepts seq r (p.completedRow false seq r) := by
  rcases Nat.eq_zero_or_pos (p.distance seq) with h0 | h0
  · rw [Part.completedRow_inSequence seq r hs h0 hq]; exact p.rowInSequence_accepts seq r
  · by_cases hb : p.distance seq ≤ p.setup.unguarded.gapBridge ∧ p.intake.queue.length + p.distance seq + 1 ≤ 4
    · rw [Part.completedRow_bridged seq r hs h0 hd hb.1 hb.2]; exact p.bridgedRow_accepts seq r _
    · rw [Part.completedRow_gap seq r hs h0 hd (by omega) hq]; exact p.beltGapRow_accepts seq r _

end Sequence

/-- Conditioning does not look at the buffers. -/
theorem Part.freeBuffer_conditionsLike (p : Part) (slot : BitVec 6) : (p.freeBuffer slot).ConditionsLike p :=
  ⟨rfl, rfl, rfl, rfl, rfl⟩

/-- Settles O16, one clause for each way of the sequence check. -/
theorem sequenceCheck : Obligations.SequenceCheck := by
  intro slot data b s hslot hmark hb hc hsync hpending
  dsimp only
  let p := s.part.freeBuffer slot
  let r := subRowsOf b.words s.part.setup.guarded.beams
  let seq : Half := data.extractLsb' 0 16
  have hp : p.intake.syncPending = false := hpending
  have hrow : (p.condition r).1 = (s.part.condition r).1 := (s.part.freeBuffer_conditionsLike slot).row r
  have hrec : (p.condition r).2.recorder = (s.part.condition r).2.recorder :=
    (s.part.freeBuffer_conditionsLike slot).recorder_condition r
  have hpart : s.part.header slot 0xF data = p.completedRow false seq r := by
    rw [Part.header_complete s.part slot data b hslot hmark hb hc, hsync]
  refine ⟨_, rfl, rfl, ?_⟩
  rw [State.onPart_part, hpart, ← hrow, ← hrec]
  refine ⟨p.completedRow_syncPending seq r hp, fun hd hq => ?_, fun hd hq => ?_, fun hd hd' hbr hq => ?_,
    fun hd hd' hbr hq => ?_, fun hd hq => ?_, fun hd => ?_⟩
  · obtain ⟨hexpected, haccepted, hlast, hdropped, hpresent, hhalt⟩ := Part.completedRow_accepts seq r hp hd hq
    exact ⟨hexpected, haccepted, hlast, hdropped, hpresent, hhalt⟩
  · rw [Part.completedRow_inSequence seq r hp hd hq]
    obtain ⟨hqueue, hsynth, hout⟩ := p.rowInSequence_queued seq r
    exact ⟨hqueue, hsynth, congrArg _ hout⟩
  · rw [Part.completedRow_bridged seq r hp hd hd' hbr hq]
    obtain ⟨hqueue, hsynth, hout⟩ := p.bridgedRow_queued seq r (p.distance seq)
    exact ⟨hqueue, hsynth, congrArg _ hout⟩
  · rw [Part.completedRow_gap seq r hp hd hd' hbr hq]
    exact p.beltGapRow_queued seq r (p.distance seq)
  · rw [Part.completedRow_overrun seq r hp hd hq]
    simp only [Part.overrun_intake, Part.overrun_belt, Part.overrun_recorder]
    exact ⟨rfl, rfl, rfl, rfl, rfl, rfl, p.raise_outgoing _ _⟩
  · rw [Part.completedRow_old seq r hp hd]; rfl

/-! ### A sync row (R6) -/

section Sync

variable (p : Part) (seq : Half) (r : SubRows)

/-- R6: the part that has left the sync-pending state. -/
def Part.synced : Part := { p with intake.syncPending := false }

theorem Part.synced_conditionsLike : p.synced.ConditionsLike p := ⟨rfl, rfl, rfl, rfl, rfl⟩

/-- R6: a sync row that finds a place. -/
theorem Part.syncRow_of_lt (hq : p.intake.queue.length < 4) : p.syncRow seq r =
    (let q := (p.synced.condition r).2.queueRow { (p.synced.condition r).1 with trunc := p.trackerBusy }
     (if p.trackerBusy then q.raise .beltGap 0 else q).acceptRow seq) :=
  if_neg (by rw [p.freeRows_eq_zero_iff]; omega)

/-- R10: a sync row that finds none. -/
theorem Part.syncRow_of_full (hq : 4 ≤ p.intake.queue.length) :
    p.syncRow seq r = { p.overrun seq with intake.syncPending := true } :=
  if_pos (p.freeRows_eq_zero_iff.2 hq)

/-- R6: what an accepted sync row leaves in row intake. -/
theorem Part.syncRow_intake (hq : p.intake.queue.length < 4) : (p.syncRow seq r).intake =
    { (p.synced.condition r).2.intake with
      queue := p.intake.queue ++ [{ (p.condition r).1 with trunc := p.trackerBusy }]
      expected := seq + 1
      accepted := p.intake.accepted + 1
      lastRow := (p.condition r).1.covered } := by
  rw [Part.syncRow_of_lt p seq r hq, p.synced_conditionsLike.row]
  dsimp only
  rw [Part.acceptRow_intake]
  cases p.trackerBusy <;> simp [Part.condition_intake, p.synced_conditionsLike.row] <;> exact ⟨rfl, rfl⟩

theorem Part.syncRow_running (hq : p.intake.queue.length < 4) :
    (p.syncRow seq r).belt.present = .running ∧ (p.syncRow seq r).belt.halt = some 0 := by
  rw [Part.syncRow_of_lt p seq r hq]
  exact Part.acceptRow_running _ _

/-- R6: BELT_GAP(0) follows the events of the row's conditioning when hides may still be open or opened. -/
theorem Part.syncRow_outgoing (hq : p.intake.queue.length < 4) (hr : (p.condition r).2.recorder.outgoing.length < 8) :
    (p.syncRow seq r).recorder.outgoing = (p.condition r).2.recorder.outgoing ++
      (if p.trackerBusy then [.event .beltGap p.tracker.rowIndex 0] else []) := by
  have hrec := p.synced_conditionsLike.recorder_condition r
  rw [Part.syncRow_of_lt p seq r hq]
  dsimp only
  rw [Part.acceptRow_recorder]
  split
  · rw [Part.raise_outgoing _ _ _ (by simpa [hrec] using hr)]
    rw [Part.queueRow_recorder, hrec, Part.queueRow_tracker, Part.condition_rowIndex]
    rfl
  · simp [hrec]

end Sync

/-- Settles O15. -/
theorem syncRow : Obligations.SyncRow := by
  intro slot data b s hslot hmark hb hc hsync
  dsimp only
  let p := s.part.freeBuffer slot
  let r := subRowsOf b.words s.part.setup.guarded.beams
  let seq : Half := data.extractLsb' 0 16
  have hrow : (p.condition r).1 = (s.part.condition r).1 := (s.part.freeBuffer_conditionsLike slot).row r
  have hrec : (p.condition r).2.recorder = (s.part.condition r).2.recorder :=
    (s.part.freeBuffer_conditionsLike slot).recorder_condition r
  have hbusy : p.trackerBusy =
      (s.part.tracker.pass.isSome || !s.part.openHides.isEmpty || !s.part.intake.queue.isEmpty) := by
    rw [Part.trackerBusy, Part.trackerQuiet, Bool.not_and, Option.not_isNone]; rfl
  have hpart : s.part.header slot 0xF data = p.syncRow seq r := by
    rw [Part.header_complete s.part slot data b hslot hmark hb hc, Part.completedRow]
    exact if_pos (Bool.or_eq_true_iff.2 hsync)
  refine ⟨_, rfl, rfl, ?_⟩
  rw [State.onPart_part, hpart, ← hrow, ← hrec, ← hbusy]
  refine ⟨fun hq => ?_, fun hq => ?_⟩
  · obtain ⟨hpresent, hhalt⟩ := p.syncRow_running seq r hq
    rw [p.syncRow_intake seq r hq, Part.condition_intake]
    exact ⟨rfl, rfl, rfl, rfl, rfl, rfl, hpresent, hhalt, p.syncRow_outgoing seq r hq⟩
  · rw [p.syncRow_of_full seq r hq]
    simp only [Part.overrun_intake, Part.overrun_belt, Part.overrun_recorder]
    exact ⟨rfl, rfl, trivial, rfl, rfl, rfl, rfl, p.raise_outgoing _ _⟩

end Sys2Proof.Machine

/-! ## Sub-rows, conditioned beams and masked beams -/

namespace Sys2Proof.Machine

/-! ### Bits of a beam set -/

/-- A word put at word place `j` of a beam set. -/
theorem getLsbD_wordAt (w : Word) (j x : Nat) (hj : 32 * j + 32 ≤ 384) :
    (w.setWidth 384 <<< (32 * j)).getLsbD x = (decide (x / 32 = j) && w.getLsbD (x % 32)) := by
  by_cases h : x / 32 = j
  · have hx : x < 384 := by omega
    have hlow : ¬ x < 32 * j := by omega
    have hsub : x - 32 * j = x % 32 := by omega
    simp [h, hx, hlow, hsub]
  · simp only [BitVec.getLsbD_shiftLeft, BitVec.getLsbD_setWidth, h, decide_false, Bool.false_and, Bool.and_eq_false_iff]
    by_cases hlow : x < 32 * j
    · simp [hlow]
    · exact .inr (.inr (BitVec.getLsbD_of_ge _ _ (by omega)))

/-- `n` words laid one behind the other: beam `x` is bit `x % 32` of word `x / 32` (11.1, 11.2). -/
theorem getLsbD_packed (f : Nat → Word) (n x : Nat) (hn : 32 * n ≤ 384) :
    ((List.range n).foldl (fun acc j => acc ||| ((f j).setWidth 384 <<< (32 * j))) 0).getLsbD x =
      (decide (x < 32 * n) && (f (x / 32)).getLsbD (x % 32)) := by
  induction n with
  | zero => simp
  | succ n ih =>
    rw [List.range_succ, List.foldl_append, List.foldl_cons, List.foldl_nil, BitVec.getLsbD_or, ih (by omega),
      getLsbD_wordAt _ _ _ (by omega)]
    by_cases h : x / 32 = n
    · simp [h, show ¬ x < 32 * n by omega, show x < 32 * (n + 1) by omega]
    · have hiff : (x < 32 * (n + 1)) ↔ x < 32 * n := by omega
      simp [h, hiff]

theorem getLsbD_beam {w : Nat} (b x : Nat) (hx : x < w) : ((1 : BitVec w) <<< b).getLsbD x = decide (x = b) := by
  simp only [BitVec.getLsbD_shiftLeft, hx, decide_true, Bool.true_and]
  rw [Bool.eq_iff_iff]
  simp [show 0 < w by omega]
  omega

/-- Beams added one after another under a condition. -/
theorem getLsbD_addBeams {w : Nat} (c : Nat → Bool) (l : List Nat) (m : BitVec w) (x : Nat) (hx : x < w) :
    (l.foldl (fun acc b => if c b then acc ||| ((1 : BitVec w) <<< b) else acc) m).getLsbD x =
      (m.getLsbD x || (decide (x ∈ l) && c x)) := by
  induction l generalizing m with
  | nil => simp
  | cons b l ih =>
    have hstep : (if c b then m ||| ((1 : BitVec w) <<< b) else m).getLsbD x = (m.getLsbD x || (decide (x = b) && c b)) := by
      cases c b
      · simp
      · rw [if_pos rfl, BitVec.getLsbD_or, getLsbD_beam b x hx, Bool.and_true]
    rw [List.foldl_cons, ih, hstep]
    by_cases h : x = b
    · subst h; cases c x <;> simp
    · simp [h]

theorem getLsbD_beamsBelow (n x : Nat) (hx : x < 384) : (beamsBelow n).getLsbD x = decide (x < n) := by
  simp only [beamsBelow, BitVec.getLsbD_ofNat, Nat.testBit_two_pow_sub_one, hx, decide_true, Bool.true_and]

/-! ### Sub-rows (11.1) -/

theorem getLsbD_subRow (words : List BufWord) (i n x : Nat) (hn : 32 * n ≤ 384) :
    (subRow words i n).getLsbD x =
      (decide (x < 32 * n) && (words.getD (i + x / 32) { data := 0, written := 0 }).data.getLsbD (x % 32)) :=
  getLsbD_packed (fun j => (words.getD (i + j) { data := 0, written := 0 }).data) n x hn

theorem SubRows.getLsbD_majority (r : SubRows) (b : Nat) : r.majority.getLsbD b =
    ((r.a.getLsbD b && r.b.getLsbD b) || (r.a.getLsbD b && r.c.getLsbD b) || (r.b.getLsbD b && r.c.getLsbD b)) := by
  simp only [SubRows.majority, BitVec.getLsbD_or, BitVec.getLsbD_and]

theorem SubRows.getLsbD_disagree (r : SubRows) (b : Nat) : r.disagree.getLsbD b =
    !(r.a.getLsbD b == r.b.getLsbD b && r.b.getLsbD b == r.c.getLsbD b) := by
  simp only [SubRows.disagree, BitVec.getLsbD_or, BitVec.getLsbD_xor]
  cases r.a.getLsbD b <;> cases r.b.getLsbD b <;> cases r.c.getLsbD b <;> rfl

/-! ### The conditioned row, beam by beam (R12) -/

section Row

variable (mask : Beams) (r : SubRows) (n b : Nat) (hb : b < 384)
include hb

theorem getLsbD_interpolated (majority : Beams) : (interpolated mask majority n).getLsbD b =
    (decide (b < n) && (mask.getLsbD b && interpolate mask majority n b)) := by
  rw [interpolated, getLsbD_addBeams _ _ _ _ hb]
  simp

theorem getLsbD_conditionedValues (majority : Beams) : (conditionedValues mask majority n).getLsbD b =
    (decide (b < n) && if mask.getLsbD b then interpolate mask majority n b else majority.getLsbD b) := by
  simp only [conditionedValues, BitVec.getLsbD_and, BitVec.getLsbD_or, BitVec.getLsbD_not, hb,
    getLsbD_interpolated mask n b hb, getLsbD_beamsBelow n b hb]
  cases mask.getLsbD b <;> cases decide (b < n) <;> simp

theorem getLsbD_noisySet : (noisySet mask r n).getLsbD b =
    (decide (b < n) && (!mask.getLsbD b && r.disagree.getLsbD b)) := by
  simp only [noisySet, BitVec.getLsbD_and, BitVec.getLsbD_not, hb, getLsbD_beamsBelow n b hb]
  cases mask.getLsbD b <;> cases decide (b < n) <;> simp

end Row

/-! ### The stuck-run counters and the beams that join (R14) -/

theorem stuckCounts_getD (setupMask majority : Beams) (n : Nat) (stuck : List Nat) (b : Nat) (hb : b < stuck.length) :
    (stuckCounts setupMask majority n stuck).getD b 0 =
      if b < n then stuckCount (setupMask.getLsbD b) (majority.getLsbD b) (stuck.getD b 0) else stuck.getD b 0 := by
  simp [stuckCounts, List.getD_eq_getElem?_getD, hb]

section Joining

variable (p : Part) (r : SubRows)

theorem Part.mem_joining (b : Nat) : b ∈ p.joining r ↔ b < p.setup.guarded.beams ∧
    p.setup.guarded.mask.getLsbD b = false ∧ p.intake.autoMask.getLsbD b = false ∧ r.majority.getLsbD b = true ∧
    p.setup.guarded.stuckLimit ≤ (p.condition r).2.intake.stuck.getD b 0 := by
  simp only [Part.joining, newlyStuck, Part.condition_intake, List.mem_filter, List.mem_range, Bool.and_eq_true,
    Bool.not_eq_true', decide_eq_true_eq, and_assoc]

theorem Part.getLsbD_condition_autoMask (b : Nat) (hb : b < 384) : (p.condition r).2.intake.autoMask.getLsbD b =
    (p.intake.autoMask.getLsbD b || decide (b ∈ p.joining r)) := by
  rw [Part.condition_intake]
  simpa using getLsbD_addBeams (fun _ => true) (p.joining r) p.intake.autoMask b hb

/-- With room for them the BEAM_STUCK events follow one another in the order of the beams (R15). -/
theorem Part.stickBeams_outgoing (bs : List Nat) (h : p.recorder.outgoing.length + bs.length ≤ 8) :
    (bs.foldl Part.stickBeam p).recorder.outgoing = p.recorder.outgoing ++
      bs.map (fun b => .event .beamStuck p.tracker.rowIndex (BitVec.ofNat 32 b)) := by
  induction bs generalizing p with
  | nil => simp
  | cons b bs ih =>
    have hlen : p.recorder.outgoing.length + (bs.length + 1) ≤ 8 := h
    have hout : (p.stickBeam b).recorder.outgoing =
        p.recorder.outgoing ++ [.event .beamStuck p.tracker.rowIndex (BitVec.ofNat 32 b)] := by
      rw [Part.stickBeam, Part.giveNotice_recorder]
      exact Part.raise_outgoing _ _ _ (show p.recorder.outgoing.length < 8 by omega)
    rw [List.foldl_cons, ih _ (by rw [hout, List.length_append, List.length_singleton]; omega), hout, Part.stickBeam_rowIndex]
    simp

/-- What the tracker makes of a MASKED_BEAMS notice (R15). -/
def Tracker.noticed (t : Tracker) : Tracker :=
  if t.pass.isSome then { t with noticeWaiting := true }
  else { t with
    table := t.table.map (Option.map Hide.flagMasked), spill := t.spill.map Hide.flagMasked, noticeWaiting := false }

theorem Part.giveNotice_tracker : p.giveNotice.tracker = p.tracker.noticed := by
  unfold Part.giveNotice Tracker.noticed; split <;> rfl

theorem Hide.flagMasked_flagMasked (h : Hide) : h.flagMasked.flagMasked = h.flagMasked := rfl

/-- A second notice adds nothing. -/
theorem Tracker.noticed_noticed (t : Tracker) : t.noticed.noticed = t.noticed := by
  by_cases h : t.pass.isSome = true <;>
    simp [Tracker.noticed, h, Function.comp_def, Hide.flagMasked_flagMasked]

theorem Part.stickBeam_tracker (b : Nat) : (p.stickBeam b).tracker = p.tracker.noticed := by
  simp [Part.stickBeam, Part.giveNotice_tracker]

theorem Part.stickBeams_tracker (bs : List Nat) (h : bs ≠ []) : (bs.foldl Part.stickBeam p).tracker = p.tracker.noticed := by
  induction bs generalizing p with
  | nil => exact absurd rfl h
  | cons b bs ih =>
    rw [List.foldl_cons]
    by_cases hbs : bs = []
    · subst hbs; exact p.stickBeam_tracker b
    · rw [ih _ hbs, Part.stickBeam_tracker, Tracker.noticed_noticed]

end Joining

/-- Settles O17: the sub-rows word by word, and a conditioned row by the rules of its beams and of the beams that join. -/
theorem conditionedBeams : Obligations.ConditionedBeams := by
  refine ⟨fun words beams x hbeams => ?_, fun p r hbeams hstuck => ?_⟩
  · have hn : 32 * (beams / 32) ≤ 384 := by omega
    refine ⟨fun hx => ?_, fun hx => ?_⟩
    · simp only [subRowsOf, wordsPerSubRow, getLsbD_subRow _ _ _ _ hn, hx, Nat.zero_add, decide_true, Bool.true_and, and_self]
    · simp only [subRowsOf, wordsPerSubRow, getLsbD_subRow _ _ _ _ hn, Nat.not_lt.2 hx, decide_false, Bool.false_and, and_self]
  · dsimp only
    have hjoined : (List.range p.setup.guarded.beams).filter (fun b => !p.setup.guarded.mask.getLsbD b &&
        !p.intake.autoMask.getLsbD b && ((r.a.getLsbD b && r.b.getLsbD b) || (r.a.getLsbD b && r.c.getLsbD b) ||
          (r.b.getLsbD b && r.c.getLsbD b)) &&
        decide (p.setup.guarded.stuckLimit ≤ (p.condition r).2.intake.stuck.getD b 0)) = p.joining r := by
      simp only [Part.joining, newlyStuck, Part.condition_intake, SubRows.getLsbD_majority]
    rw [hjoined]
    refine ⟨rfl, rfl, by rw [Part.condition_intake], fun h => ?_, fun h => ?_, fun h hpass => ?_, fun h hpass => ?_,
      fun b hb => ⟨fun hn => ?_, fun hn => ⟨fun hm => ?_, fun hm => ?_, ?_, ?_⟩⟩⟩
    · exact Part.stickBeams_outgoing _ _ h
    · rw [Part.condition_snd, h]; exact ⟨rfl, rfl⟩
    · rw [Part.condition_snd, Part.stickBeams_tracker _ _ h, Tracker.noticed, if_neg (by simp [hpass])]
      exact ⟨rfl, rfl⟩
    · rw [Part.condition_snd, Part.stickBeams_tracker _ _ h, Tracker.noticed, if_pos hpass]
    · refine ⟨?_, ?_, ?_, ?_⟩
      · simp [Part.condition, getLsbD_conditionedValues _ _ b hb, hn]
      · simp [Part.condition, getLsbD_noisySet _ _ _ b hb, hn]
      · rw [Part.condition_intake, stuckCounts_getD _ _ _ _ _ (hstuck ▸ hb), if_neg (by omega)]
      · simp [Part.getLsbD_condition_autoMask p r b hb, Part.mem_joining, hn]
    · simp only [Part.condition, getLsbD_conditionedValues _ _ b hb, getLsbD_noisySet _ _ _ b hb, BitVec.getLsbD_or, hm,
        SubRows.getLsbD_majority, SubRows.getLsbD_disagree]
      simp [hn]
    · simp only [Part.condition, getLsbD_noisySet _ _ _ b hb, BitVec.getLsbD_or, hm]
      simp
    · rw [Part.condition_intake, stuckCounts_getD _ _ _ _ _ (hstuck ▸ hb), if_pos hn, stuckCount, SubRows.getLsbD_majority]
    · rw [Part.getLsbD_condition_autoMask p r b hb, ← SubRows.getLsbD_majority, Bool.eq_iff_iff]
      simp only [Bool.or_eq_true, Bool.and_eq_true, Bool.not_eq_true', decide_eq_true_eq, Part.mem_joining]
      cases p.intake.autoMask.getLsbD b <;> simp [hn, and_assoc]

/-! ### Masked beams (R13) -/

section Masked

variable (mask majority : Beams) (n b : Nat)

theorem unmaskedBelow_succ :
    unmaskedBelow mask (b + 1) = if mask.getLsbD b then unmaskedBelow mask b else some b := by
  unfold unmaskedBelow
  rw [List.range_succ, List.reverse_append, List.reverse_singleton, List.singleton_append, List.find?_cons]
  cases mask.getLsbD b <;> rfl

variable {mask b}

theorem unmaskedBelow_eq_some {lo : Nat} (hlo : lo < b) (hm : mask.getLsbD lo = false)
    (h : ∀ c, lo < c → c < b → mask.getLsbD c = true) : unmaskedBelow mask b = some lo := by
  induction b with
  | zero => exact absurd hlo (by omega)
  | succ b ih =>
    rw [unmaskedBelow_succ]
    rcases Nat.lt_succ_iff_lt_or_eq.1 hlo with hlt | rfl
    · rw [if_pos (h b hlt (by omega)), ih hlt fun c hc hcb => h c hc (by omega)]
    · simp [hm]

theorem unmaskedBelow_eq_none (h : ∀ c, c < b → mask.getLsbD c = true) : unmaskedBelow mask b = none :=
  List.find?_eq_none.2 fun c hc => by simp [h c (by simpa using hc)]

theorem mem_columns (lo hi c : Nat) : c ∈ columns lo hi ↔ lo ≤ c ∧ c ≤ hi := by
  simp only [columns, List.mem_map, List.mem_range]
  refine ⟨?_, fun h => ⟨c - lo, by omega, by omega⟩⟩
  rintro ⟨k, hk, rfl⟩
  omega

theorem columns_cons (lo hi : Nat) (h : lo ≤ hi) : columns lo hi = lo :: columns (lo + 1) hi := by
  unfold columns
  rw [show hi + 1 - lo = hi + 1 - (lo + 1) + 1 by omega, List.range_succ_eq_map, List.map_cons, List.map_map, Nat.zero_add]
  congr 1
  exact List.map_congr_left fun k _ => by simp only [Function.comp_apply]; omega

variable {n}

/-- The search upwards goes beam by beam. -/
theorem unmaskedAbove_step (h : b + 1 < n) :
    unmaskedAbove mask n b = if mask.getLsbD (b + 1) then unmaskedAbove mask n (b + 1) else some (b + 1) := by
  unfold unmaskedAbove
  rw [columns_cons _ _ (by omega), List.find?_cons]
  cases mask.getLsbD (b + 1) <;> rfl

theorem unmaskedAbove_eq_some {hi : Nat} (hhi : b < hi) (hn : hi < n) (hm : mask.getLsbD hi = false)
    (h : ∀ c, b < c → c < hi → mask.getLsbD c = true) : unmaskedAbove mask n b = some hi := by
  obtain ⟨k, rfl⟩ := Nat.exists_eq_add_of_lt hhi
  clear hhi
  induction k generalizing b with
  | zero => rw [unmaskedAbove_step (by omega), if_neg (by simpa using hm)]
  | succ k ih =>
    have hb : b + (k + 1) + 1 = b + 1 + k + 1 := by omega
    rw [hb] at hn hm h ⊢
    rw [unmaskedAbove_step (by omega), if_pos (h _ (by omega) (by omega)), ih hn hm fun c hc hck => h c (by omega) hck]

theorem unmaskedAbove_eq_none (h : ∀ c, b < c → c < n → mask.getLsbD c = true) : unmaskedAbove mask n b = none := by
  refine List.find?_eq_none.2 fun c hc => ?_
  by_cases hn : n = 0
  · have := (mem_columns _ _ _).1 hc; omega
  · have := (mem_columns _ _ _).1 hc; simp [h c (by omega) (by omega)]

/-- The search below reads only beams below. -/
theorem unmaskedBelow_congr {m m' : Beams} {b : Nat} (h : ∀ c, c < b → m.getLsbD c = m'.getLsbD c) :
    unmaskedBelow m b = unmaskedBelow m' b := by
  induction b with
  | zero => rfl
  | succ b ih => rw [unmaskedBelow_succ, unmaskedBelow_succ, h b (by omega), ih fun c hc => h c (by omega)]

/-- The search above reads only beams above and below B. -/
theorem unmaskedAbove_congr {m m' : Beams} {n b : Nat} (hb : b < n) (h : ∀ c, c < n → m.getLsbD c = m'.getLsbD c) :
    unmaskedAbove m n b = unmaskedAbove m' n b :=
  List.find?_congr fun c hc => by rw [h c (by have := (mem_columns _ _ _).1 hc; omega)]

/-- R13 reads the mask below B only. -/
theorem interpolate_congr {m m' majority : Beams} {n b : Nat} (hb : b < n)
    (h : ∀ c, c < n → m.getLsbD c = m'.getLsbD c) : interpolate m majority n b = interpolate m' majority n b := by
  rw [interpolate, interpolate, unmaskedBelow_congr fun c hc => h c (by omega), unmaskedAbove_congr hb h]

end Masked

theorem conditionedValues_congr {m m' majority : Beams} {n : Nat} (h : ∀ c, c < n → m.getLsbD c = m'.getLsbD c) :
    conditionedValues m majority n = conditionedValues m' majority n := by
  apply BitVec.eq_of_getLsbD_eq
  intro b hb
  rw [getLsbD_conditionedValues _ _ b hb, getLsbD_conditionedValues _ _ b hb]
  by_cases hn : b < n
  · rw [h b hn, interpolate_congr hn h]
  · simp [hn]

theorem noisySet_congr {m m' : Beams} {n : Nat} (r : SubRows) (h : ∀ c, c < n → m.getLsbD c = m'.getLsbD c) :
    noisySet m r n = noisySet m' r n := by
  apply BitVec.eq_of_getLsbD_eq
  intro b hb
  rw [getLsbD_noisySet _ _ _ b hb, getLsbD_noisySet _ _ _ b hb]
  by_cases hn : b < n
  · rw [h b hn]
  · simp [hn]

/-- Settles O18: the value is read off the two searches, and both read the mask below B only. -/
theorem maskedBeamValues : Obligations.MaskedBeamValues := by
  intro p r hbeams
  dsimp only
  simp only [← SubRows.getLsbD_majority, ← BitVec.getLsbD_or]
  have hvalue : ∀ b, b < p.setup.guarded.beams →
      (p.setup.guarded.mask ||| p.intake.autoMask).getLsbD b = true → (p.condition r).1.covered.getLsbD b =
        interpolate (p.setup.guarded.mask ||| p.intake.autoMask) r.majority p.setup.guarded.beams b := by
    intro b hb hm
    rw [Part.condition, getLsbD_conditionedValues _ _ b (by omega), hm]
    simp [hb]
  refine ⟨fun b hb hm => ⟨?_, ?_, ?_, ?_⟩, fun b hb hm hm' => ?_, fun m hm => ?_⟩
  · rintro lo hi ⟨hlo, hlom, hlo'⟩ ⟨hhi, hn, hhim, hhi'⟩
    rw [hvalue b hb hm, interpolate, unmaskedBelow_eq_some hlo hlom hlo', unmaskedAbove_eq_some hhi hn hhim hhi']
  · rintro lo ⟨hlo, hlom, hlo'⟩ hnone
    rw [hvalue b hb hm, interpolate, unmaskedBelow_eq_some hlo hlom hlo', unmaskedAbove_eq_none hnone]
  · rintro hi hnone ⟨hhi, hn, hhim, hhi'⟩
    rw [hvalue b hb hm, interpolate, unmaskedBelow_eq_none hnone, unmaskedAbove_eq_some hhi hn hhim hhi']
  · intro hall
    rw [hvalue b hb hm, interpolate, unmaskedBelow_eq_none fun c hc => hall c (by omega),
      unmaskedAbove_eq_none fun c _ hc => hall c hc]
  · rw [hvalue b (by omega) hm, hvalue (b + 1) hb hm', interpolate, interpolate, unmaskedBelow_succ, if_pos hm,
      unmaskedAbove_step hb, if_pos hm']
  · have hagree : ∀ c, c < p.setup.guarded.beams → (m ||| p.intake.autoMask).getLsbD c =
        (p.setup.guarded.mask ||| p.intake.autoMask).getLsbD c := fun c hc => by simp only [BitVec.getLsbD_or, hm c hc]
    simp only [Part.condition, conditionedValues_congr hagree, noisySet_congr r hagree]

end Sys2Proof.Machine

/-! ## COMMIT: the staged copy and its validation -/

namespace Sys2Proof.Machine

/-! ### The fields of the staged copy (11.2) -/

theorem getLsbD_stagedMask (ws : List Word) (x : Nat) (hx : x < 384) :
    (stagedMask ws).getLsbD x = (ws.getD (5 + x / 32) 0).getLsbD (x % 32) := by
  rw [stagedMask, getLsbD_packed (fun j => stagedWord ws (5 + j)) 12 x (by omega), decide_eq_true hx, Bool.true_and]
  rfl

theorem SellUnit.ofCode_eq (c : Nat) : SellUnit.ofCode c = if c = 1 then .tft else if c = 2 then .dm2 else .qft := by
  unfold SellUnit.ofCode; split <;> simp_all

theorem Rounding.ofCode_eq (c : Nat) : Rounding.ofCode c = if c = 1 then .down else .nearest := by
  unfold Rounding.ofCode; split <;> simp_all

theorem WinEnable.ofCode_eq (c : Nat) : WinEnable.ofCode c = if c = 1 then .global else if c = 2 then .lot else .off := by
  unfold WinEnable.ofCode; split <;> simp_all

/-! ### Validation (R178) -/

/-- In a list of checks with rising numbers, the number found is the least one that fails. -/
theorem firstFailing_eq_some_iff (cs : List (Nat × Bool)) (h : (cs.map Prod.fst).Pairwise (· < ·)) (k : Nat) :
    (cs.find? (fun c => !c.2)).map Prod.fst = some k ↔ (k, false) ∈ cs ∧ ∀ j, j < k → (j, false) ∉ cs := by
  induction cs with
  | nil => simp
  | cons c cs ih =>
    obtain ⟨i, good⟩ := c
    obtain ⟨hi, htail⟩ := List.pairwise_cons.1 h
    have hrise : ∀ j, (j, false) ∈ cs → i < j := fun j hj => hi j (List.mem_map_of_mem hj)
    cases good with
    | true => simpa using ih htail
    | false =>
      simp only [List.find?_cons, Bool.not_false, Option.map_some, Option.some.injEq, List.mem_cons, Prod.mk.injEq, and_true]
      refine ⟨fun hik => ⟨.inl hik.symm, fun j hj hmem => ?_⟩, fun ⟨hk, hmin⟩ => ?_⟩
      · rcases hmem with rfl | hm
        · omega
        · have := hrise j hm; omega
      · rcases hk with hk | hk
        · exact hk.symm
        · exact absurd (.inl rfl) (hmin i (hrise k hk))

theorem firstFailing_eq_none_iff (cs : List (Nat × Bool)) :
    (cs.find? (fun c => !c.2)).map Prod.fst = none ↔ ∀ k, (k, false) ∉ cs := by
  simp [List.find?_eq_none]

theorem stagedChecks_rising (ws : List Word) : ((stagedChecks ws).map Prod.fst).Pairwise (· < ·) := by
  show [0, 1, 2, 4, 20, 21, 22, 23, 24, 25, 37, 39, 40, 41, 42, 43, 44, 45, 46, 47].Pairwise (· < ·)
  decide

/-- A window word whose size or enable names no setting, or whose base is no multiple of its size. -/
def windowBad (ws : List Word) (i : Nat) : Prop :=
  2 < stagedField ws i 24 2 ∨ 2 < stagedField ws i 28 2 ∨ stagedField ws i 0 24 % 2 ^ stagedField ws i 24 2 ≠ 0

theorem windowGood_eq_false_iff (ws : List Word) (w : Nat) : windowGood ws w = false ↔ windowBad ws (39 + w) := by
  unfold windowGood windowBad windowSize
  simp only [Bool.and_eq_false_iff, decide_eq_false_iff_not, not_le, or_assoc, ne_eq]

theorem inRange_eq_false_iff (lo hi v : Nat) : inRange lo hi v = false ↔ v < lo ∨ hi < v := by
  simp only [inRange, Bool.and_eq_false_iff, decide_eq_false_iff_not, not_le]

/-- Word `k` of the staged copy has a field out of range (R178). -/
def stagedBad (ws : List Word) (k : Nat) : Prop :=
  let fld := stagedField ws
  let rowPast := fld 1 0 7 ≠ 0 ∧ 0x1000000 < fld 0 0 24 + 256 * fld 1 0 7
  let recordPast := fld 44 0 11 ≠ 0 ∧ 0x1000000 < fld 43 0 24 + 64 * fld 44 0 11
  (k = 0 ∧ (fld 0 0 24 % 256 ≠ 0 ∨ (rowPast ∧ Config.rowRingPastAtBase = true))) ∨
  (k = 1 ∧ ((fld 1 0 7 ≠ 0 ∧ (fld 1 0 7 < 4 ∨ 64 < fld 1 0 7)) ∨ (rowPast ∧ Config.rowRingPastAtBase = false))) ∨
  (k = 2 ∧ (fld 2 0 9 < 64 ∨ 384 < fld 2 0 9 ∨ fld 2 0 9 % 32 ≠ 0)) ∨
  (k = 4 ∧ fld 4 0 14 < 256) ∨
  (k = 20 ∧ (fld 20 0 15 < 1000 ∨ 20000 < fld 20 0 15)) ∨
  (k = 21 ∧ (fld 21 0 15 < 1000 ∨ 20000 < fld 21 0 15)) ∨
  (k = 22 ∧ ((stagedWord ws 22).toInt < -500 ∨ 500 < (stagedWord ws 22).toInt)) ∨
  (k = 23 ∧ (2 < fld 23 0 2 ∨ 1 < fld 23 8 2)) ∨
  (k = 24 ∧ (fld 24 0 5 < 2 ∨ 16 < fld 24 0 5 ∨ fld 24 8 5 < 2 ∨ 16 < fld 24 8 5)) ∨
  (k = 25 ∧ fld 25 0 12 < 32) ∨
  (k = 37 ∧ 999 < fld 37 0 10) ∨
  (39 ≤ k ∧ k ≤ 42 ∧ windowBad ws k) ∨
  (k = 43 ∧ (fld 43 0 24 % 64 ≠ 0 ∨ (recordPast ∧ Config.recordRingPastAtBase = true))) ∨
  (k = 44 ∧ ((fld 44 0 11 ≠ 0 ∧ (fld 44 0 11 < 16 ∨ 1024 < fld 44 0 11)) ∨
    (recordPast ∧ Config.recordRingPastAtBase = false))) ∨
  (k = 45 ∧ (fld 45 0 13 < 50 ∨ 5000 < fld 45 0 13)) ∨
  (k = 46 ∧ (fld 46 0 12 < 10 ∨ 3600 < fld 46 0 12)) ∨
  (k = 47 ∧ (fld 47 0 13 < 200 ∨ 5000 < fld 47 0 13 ∨ fld 47 0 13 % 100 ≠ 0))

/-- A field of the staged copy fits its bits. -/
theorem stagedField_lt (ws : List Word) (i lo len : Nat) : stagedField ws i lo len < 2 ^ len :=
  ((stagedWord ws i).extractLsb' lo len).isLt

/-- The four window words, one by one. -/
theorem windowsBad_iff (ws : List Word) (k : Nat) : (39 ≤ k ∧ k ≤ 42 ∧ windowBad ws k) ↔
    (k = 39 ∧ windowBad ws (39 + 0)) ∨ (k = 40 ∧ windowBad ws (39 + 1)) ∨ (k = 41 ∧ windowBad ws (39 + 2)) ∨
      (k = 42 ∧ windowBad ws (39 + 3)) := by
  constructor
  · rintro ⟨hlo, hhi, hbad⟩
    interval_cases k <;> simp [hbad]
  · rintro (⟨rfl, h⟩ | ⟨rfl, h⟩ | ⟨rfl, h⟩ | ⟨rfl, h⟩) <;> exact ⟨by omega, by omega, h⟩

theorem mem_stagedChecks_iff (ws : List Word) (k : Nat) : (k, false) ∈ stagedChecks ws ↔ stagedBad ws k := by
  have hstuck : ¬ 16383 < stagedField ws 4 0 14 := by have := stagedField_lt ws 4 0 14; omega
  have hoffset : ¬ 4095 < stagedField ws 25 0 12 := by have := stagedField_lt ws 25 0 12; omega
  simp only [stagedChecks, stagedBad, List.mem_cons, Prod.mk.injEq, List.not_mem_nil, eq_comm (a := false),
    Bool.and_eq_false_iff, Bool.or_eq_false_iff, Bool.not_eq_false', Bool.and_eq_true, Bool.not_eq_true', rowRingPast,
    recordRingPast, decide_eq_false_iff_not, decide_eq_true_eq, inRange_eq_false_iff, windowGood_eq_false_iff, not_le,
    hstuck, hoffset, windowsBad_iff, or_assoc, or_false, ne_eq]

theorem firstOutOfRange_eq_none_iff (ws : List Word) : firstOutOfRange ws = none ↔ ∀ k, ¬ stagedBad ws k := by
  rw [firstOutOfRange, firstFailing_eq_none_iff]
  simp only [mem_stagedChecks_iff]

theorem firstOutOfRange_eq_some_iff (ws : List Word) (k : Nat) :
    firstOutOfRange ws = some k ↔ stagedBad ws k ∧ ∀ j, j < k → ¬ stagedBad ws j := by
  rw [firstOutOfRange, firstFailing_eq_some_iff _ (stagedChecks_rising ws)]
  simp only [mem_stagedChecks_iff]

theorem Guarded.ofStaged_fields (ws : List Word) : ∃ mask : Beams,
    (∀ x, x < 384 → mask.getLsbD x = (ws.getD (5 + x / 32) 0).getLsbD (x % 32)) ∧
    Guarded.ofStaged ws = {
      rowRingBase := stagedField ws 0 0 24, slotCount := stagedField ws 1 0 7, beams := stagedField ws 2 0 9
      stuckLimit := stagedField ws 4 0 14, mask := mask, doubleThreshold := stagedField ws 18 0 16
      fillLimit := stagedField ws 19 0 12, beamPitch := stagedField ws 20 0 15, rowPitch := stagedField ws 21 0 15
      trim := (ws.getD 22 0).toInt
      unit := (if stagedField ws 23 0 2 = 1 then .tft else if stagedField ws 23 0 2 = 2 then .dm2 else .qft)
      rounding := (if stagedField ws 23 8 2 = 1 then .down else .nearest)
      sw := stagedField ws 24 0 5, sl := stagedField ws 24 8 5, lineOffset := stagedField ws 25 0 12 } :=
  ⟨stagedMask ws, getLsbD_stagedMask ws, by rw [Guarded.ofStaged, SellUnit.ofCode_eq, Rounding.ofCode_eq]; rfl⟩

theorem Window.ofStaged_fields (ws : List Word) (w : Nat) : Window.ofStaged ws w = {
    base := stagedField ws (39 + w) 0 24, size := 2 ^ stagedField ws (39 + w) 24 2
    readWrite := (ws.getD (39 + w) 0).getLsbD 26
    enable := (if stagedField ws (39 + w) 28 2 = 1 then .global else if stagedField ws (39 + w) 28 2 = 2 then .lot else .off) } := by
  rw [Window.ofStaged, WinEnable.ofCode_eq]; rfl

end Sys2Proof.Machine

/-! ## COMMIT: applying the guarded set, and what the unguarded fields change -/

namespace Sys2Proof.Machine

/-- The dirty set after a status word has joined. -/
theorem mem_insertRising (n x : Nat) (l : List Nat) : x ∈ insertRising n l ↔ x = n ∨ x ∈ l := by
  induction l with
  | nil => simp [insertRising]
  | cons y l ih =>
    unfold insertRising
    split
    · simp
    · split
      · next h => subst h; simp
      · simp only [List.mem_cons, ih]; tauto

/-! ### What a record leaves of the lots -/

section LotFlags

variable (p : Part)

@[simp] theorem Part.dropRecord_calChanged (r : Record) :
    (p.dropRecord r).lots.openLot.calChanged = p.lots.openLot.calChanged := by
  unfold Part.dropRecord Part.flagDropped
  cases r <;> dsimp only <;> (try split) <;> rfl

@[simp] theorem Part.emit_calChanged (r : Record) : (p.emit r).lots.openLot.calChanged = p.lots.openLot.calChanged := by
  unfold Part.emit
  (repeat' split) <;> simp

@[simp] theorem Part.flagDropped_closing_calChanged (id : Half) :
    (p.flagDropped id).lots.closing.map Lot.calChanged = p.lots.closing.map Lot.calChanged := by
  unfold Part.flagDropped
  split
  · rfl
  · rw [Option.map_map]
    exact congrArg (fun f => Option.map f p.lots.closing) (funext fun l => by rw [Function.comp_apply]; split <;> rfl)

@[simp] theorem Part.dropRecord_closing_calChanged (r : Record) :
    (p.dropRecord r).lots.closing.map Lot.calChanged = p.lots.closing.map Lot.calChanged := by
  unfold Part.dropRecord
  cases r <;> simp

@[simp] theorem Part.emit_closing_calChanged (r : Record) :
    (p.emit r).lots.closing.map Lot.calChanged = p.lots.closing.map Lot.calChanged := by
  unfold Part.emit
  (repeat' split) <;> simp

/-- A record never makes or unmakes a CLOSING lot. -/
theorem Part.emit_closing_eq_none (r : Record) : (p.emit r).lots.closing = none ↔ p.lots.closing = none := by
  rw [← Option.map_eq_none_iff (f := Lot.calChanged), Part.emit_closing_calChanged, Option.map_eq_none_iff]

end LotFlags

/-! ### Applying a guarded set (R16, R20, R181) -/

section ApplyGuarded

variable (p : Part) (g : Guarded)

@[simp] theorem Part.applyGuarded_setup : (p.applyGuarded g).setup = { p.setup with guarded := g } := by
  unfold Part.applyGuarded; dsimp only; (repeat' split) <;> simp

theorem Part.applyGuarded_lots : (p.applyGuarded g).lots = p.flagCalChanged.lots := by
  unfold Part.applyGuarded; dsimp only; (repeat' split) <;> simp [Part.flagCalChanged]

/-- R181: every lot alive carries CAL_CHANGED after a guarded set is applied. -/
theorem Part.applyGuarded_calChanged : (p.applyGuarded g).lots.openLot.calChanged = true ∧
    ∀ l, (p.applyGuarded g).lots.closing = some l → l.calChanged = true := by
  rw [Part.applyGuarded_lots]
  refine ⟨rfl, fun l hl => ?_⟩
  obtain ⟨c, -, rfl⟩ := Option.map_eq_some_iff.1 hl
  rfl

/-- R16: the auto-mask goes when the mask changes, and only then. -/
theorem Part.applyGuarded_autoMask :
    (p.applyGuarded g).intake.autoMask = if g.mask = p.setup.guarded.mask then p.intake.autoMask else 0 := by
  unfold Part.applyGuarded
  by_cases h : g.mask = p.setup.guarded.mask
  · simp only [h, ne_eq, not_true_eq_false, if_false, if_true]; split <;> rfl
  · rw [if_neg h]; dsimp only; rw [if_pos (Ne.symm h)]; rfl

/-- R16. -/
theorem Part.applyGuarded_stuck_of_mask (h : g.mask ≠ p.setup.guarded.mask) :
    (p.applyGuarded g).intake.stuck = List.replicate 384 0 := by
  unfold Part.applyGuarded; dsimp only; rw [if_pos (Ne.symm h)]; rfl

/-- R20: a change of the ring or of the beam count is a row-ring reconfiguration. -/
theorem Part.applyGuarded_geometry (h : g.rowRingBase ≠ p.setup.guarded.rowRingBase ∨
    g.slotCount ≠ p.setup.guarded.slotCount ∨ g.beams ≠ p.setup.guarded.beams) :
    let q := p.applyGuarded g
    q.intake.buffers = [] ∧ q.intake.queue = [] ∧ q.intake.syncPending = true ∧ q.intake.stuck = List.replicate 384 0 := by
  have hgeo : p.setup.guarded.geometryDiffers g = true := by
    rcases h with h | h | h <;> simp [Guarded.geometryDiffers, Ne.symm h]
  unfold Part.applyGuarded
  dsimp only
  rw [if_pos hgeo]
  split <;> exact ⟨rfl, rfl, rfl, rfl⟩

/-- What applying a guarded set leaves whatever the settings: the counts of row intake, and a row that waits for sync. -/
theorem Part.applyGuarded_intake_kept :
    let q := p.applyGuarded g
    q.intake.dropped = p.intake.dropped ∧ q.intake.accepted = p.intake.accepted ∧
      (p.intake.syncPending = true → q.intake.syncPending = true) := by
  unfold Part.applyGuarded
  dsimp only
  split
  all_goals split
  · exact ⟨rfl, rfl, fun _ => rfl⟩
  · exact ⟨rfl, rfl, id⟩
  · exact ⟨rfl, rfl, fun _ => rfl⟩
  · exact ⟨rfl, rfl, id⟩

end ApplyGuarded

/-! ### The pending snapshot (R180, R181) -/

section Snapshot

variable (p : Part)

theorem Part.setSnapshot_setup (x : Option Snapshot) : (p.setSnapshot x).setup = { p.setup with snapshot := x } := by
  unfold Part.setSnapshot; dsimp only; split <;> rfl

/-- R180: setup-quiet. -/
theorem Part.setupQuiet_iff :
    p.setupQuiet = true ↔ p.tracker.pass = none ∧ p.openHides = [] ∧ p.jobs = [] ∧ p.intake.queue = [] := by
  simp [Part.setupQuiet, Part.trackerQuiet, and_assoc]

/-- Setup-quiet is read off the tracker, the queue of rows and the presence of jobs. -/
theorem Part.setupQuiet_congr {p q : Part} (ht : p.tracker = q.tracker) (hj : p.jobs.isEmpty = q.jobs.isEmpty)
    (hq : p.intake.queue = q.intake.queue) : p.setupQuiet = q.setupQuiet := by
  simp only [Part.setupQuiet, Part.trackerQuiet, Part.openHides, ht, hj, hq]

theorem Part.applySnapshotIfQuiet_waits (h : p.setup.snapshot = none ∨ p.setupQuiet = false) :
    p.applySnapshotIfQuiet = p := by
  unfold Part.applySnapshotIfQuiet
  split
  · rfl
  · next hs => rw [if_neg (by simpa [hs] using h)]

theorem Part.applySnapshotIfQuiet_applies {n : Snapshot} (hs : p.setup.snapshot = some n) (hq : p.setupQuiet = true) :
    p.applySnapshotIfQuiet =
      ((p.applyGuarded n.fields).raise .commitApplied (n.tag.setWidth 32)).setSnapshot none := by
  unfold Part.applySnapshotIfQuiet
  rw [hs]
  exact if_pos hq

/-- What a moment that looks for a setup-quiet part can do: nothing, or apply the snapshot. -/
theorem Part.applySnapshotIfQuiet_cases :
    ((p.setup.snapshot = none ∨ p.setupQuiet = false) ∧ p.applySnapshotIfQuiet = p) ∨
      ∃ n, p.setup.snapshot = some n ∧ p.setupQuiet = true ∧ p.applySnapshotIfQuiet =
        ((p.applyGuarded n.fields).raise .commitApplied (n.tag.setWidth 32)).setSnapshot none := by
  by_cases h : p.setup.snapshot = none ∨ p.setupQuiet = false
  · exact .inl ⟨h, p.applySnapshotIfQuiet_waits h⟩
  · rw [not_or, Bool.not_eq_false] at h
    obtain ⟨hs, hq⟩ := h
    obtain ⟨n, hn⟩ := Option.ne_none_iff_exists'.1 hs
    exact .inr ⟨n, hn, hq, p.applySnapshotIfQuiet_applies hn hq⟩

/-- No snapshot is left over where the part is setup-quiet. -/
def Part.Settled (p : Part) : Prop := p.setup.snapshot ≠ none → p.setupQuiet = false

theorem Part.applySnapshotIfQuiet_settled : p.applySnapshotIfQuiet.Settled := by
  intro hs
  rcases p.applySnapshotIfQuiet_cases with ⟨h, e⟩ | ⟨n, -, -, e⟩
  · rw [e] at hs ⊢; exact h.resolve_left hs
  · rw [e, Part.setSnapshot_setup] at hs; exact absurd rfl hs

/-! ### The closing test leaves the setup page but for the mark windows -/

theorem Part.lotTransition_setup (id : Half) (b : Bool) :
    ∃ u, (p.lotTransition id b).setup = { p.setup with unguarded := u } := ⟨_, rfl⟩

theorem Part.takePackPending_setup : ∃ u, p.takePackPending.setup = { p.setup with unguarded := u } := by
  unfold Part.takePackPending
  dsimp only
  (repeat' split) <;> exact ⟨_, rfl⟩

theorem Part.closingTest_setup : ∃ u, p.closingTest.setup = { p.setup with unguarded := u } := by
  unfold Part.closingTest
  dsimp only
  split
  · exact ⟨_, rfl⟩
  · split
    · obtain ⟨u, hu⟩ := p.closeLotIfEmpty.takePackPending_setup
      exact ⟨u, by rw [Part.closeLotIfEmpty_setup, hu, Part.closeLotIfEmpty_setup]⟩
    · exact ⟨_, by rw [Part.closeLotIfEmpty_setup]⟩

theorem Part.closingTestFor_setup (id : Half) : ∃ u, (p.closingTestFor id).setup = { p.setup with unguarded := u } := by
  unfold Part.closingTestFor
  split
  · split
    · exact p.closingTest_setup
    · exact ⟨_, rfl⟩
  · exact ⟨_, rfl⟩

variable {p}

/-- A change of the lots and their windows alone keeps the part settled. -/
theorem Part.Settled.of_eq {q : Part} (h : p.Settled) (hs : q.setup.snapshot = p.setup.snapshot)
    (hq : q.setupQuiet = p.setupQuiet) : q.Settled := by
  unfold Part.Settled; rw [hs, hq]; exact h

theorem Part.Settled.closingTest (h : p.Settled) : p.closingTest.Settled := by
  obtain ⟨u, hu⟩ := p.closingTest_setup
  exact h.of_eq (by rw [hu]) (Part.setupQuiet_congr (by simp) (by simp [Part.jobs]) (by simp))

theorem Part.Settled.closingTestFor (h : p.Settled) (id : Half) : (p.closingTestFor id).Settled := by
  obtain ⟨u, hu⟩ := p.closingTestFor_setup id
  exact h.of_eq (by rw [hu]) (Part.setupQuiet_congr (by simp) (by simp [Part.jobs]) (by simp))

/-- R181: a job's final outcome leaves no snapshot over in a setup-quiet part. -/
theorem Part.finishJob_settled (p : Part) (j : Job) (o : StampOutcome) : (p.finishJob j o).Settled :=
  (Part.applySnapshotIfQuiet_settled _).closingTestFor _

theorem Part.quietTests_settled (p : Part) : p.quietTests.Settled := (Part.applySnapshotIfQuiet_settled _).closingTest

theorem Part.takeRestart_settled (p : Part) : p.takeRestart.Settled := Part.quietTests_settled _

/-- Both ways a pass ends end in the tests at a quiet moment (R181). -/
theorem Part.passEnd_settled (p : Part) : p.passEnd.Settled := by
  unfold Part.passEnd
  dsimp only
  split <;> exact Part.quietTests_settled _

end Snapshot

/-! ### The unguarded fields (R155, R179, R189) -/

section Unguarded

variable (p : Part)

/-- Of the part's other blocks the record ring and the timers leave these as they are. -/
structure Part.SameRows (p q : Part) : Prop where
  setup : q.setup = p.setup
  tracker : q.tracker = p.tracker
  intake : q.intake = p.intake
  jobs : q.jobs.isEmpty = p.jobs.isEmpty

variable {p}

theorem Part.SameRows.refl (p : Part) : p.SameRows p := ⟨rfl, rfl, rfl, rfl⟩

theorem Part.SameRows.trans {p q t : Part} (h : p.SameRows q) (h' : q.SameRows t) : p.SameRows t :=
  ⟨h'.setup.trans h.setup, h'.tracker.trans h.tracker, h'.intake.trans h.intake, h'.jobs.trans h.jobs⟩

variable (p)

theorem Part.dropRecord_sameRows (r : Record) : p.SameRows (p.dropRecord r) := ⟨by simp, by simp, by simp, by simp [Part.jobs]⟩

theorem Part.abandonRecord_sameRows : p.SameRows p.abandonRecord := by
  unfold Part.abandonRecord
  split
  · exact Part.SameRows.trans (q := { p with recorder.inProgress := none }) ⟨rfl, rfl, rfl, rfl⟩
      (Part.dropRecord_sameRows _ _)
  · exact .refl p

theorem Part.dropRecords_sameRows (rs : List Record) : p.SameRows (rs.foldl Part.dropRecord p) := by
  induction rs generalizing p with
  | nil => exact .refl p
  | cons r rs ih => exact (p.dropRecord_sameRows r).trans (ih _)

theorem Part.ringChange_sameRows : p.SameRows p.ringChange := by
  have hzero : p.SameRows p.abandonRecord.zeroRing := p.abandonRecord_sameRows.trans ⟨rfl, rfl, rfl, rfl⟩
  unfold Part.ringChange
  dsimp only
  split
  · exact hzero.trans (Part.SameRows.trans (q := { p.abandonRecord.zeroRing with recorder.outgoing := [] })
      ⟨rfl, rfl, rfl, rfl⟩ (Part.dropRecords_sameRows _ _))
  · exact hzero

theorem Part.ringAfterCommit_sameRows (old : Unguarded) : p.SameRows (p.ringAfterCommit old) := by
  unfold Part.ringAfterCommit
  split
  · exact p.ringChange_sameRows
  · exact .refl p

theorem Part.haltExpiry_sameRows : p.SameRows p.haltExpiry := by
  unfold Part.haltExpiry
  split <;> exact ⟨rfl, rfl, rfl, rfl⟩

theorem insertBy_ne_nil {α : Type} (le : α → α → Bool) (x : α) (l : List α) : insertBy le x l ≠ [] :=
  List.ne_nil_of_length_pos (by rw [insertBy_length]; omega)

/-- A job put back among the waiting ones stays a job. -/
theorem Part.enterParking_jobs_isEmpty : p.enterParking.jobs.isEmpty = p.jobs.isEmpty := by
  unfold Part.enterParking
  dsimp only
  split
  · next j hj =>
    have hj' : p.sched.current = some j := by simpa using hj
    split <;> simp [Part.jobs, hj', Part.placeJob, insertBy_ne_nil]
  · simp [Part.jobs]

/-- The park order parks a head that is free to move, and is otherwise ignored (R148). -/
theorem Part.parkOrder_cases : p.parkOrder = p.enterParking ∨ p.parkOrder = p := by
  unfold Part.parkOrder
  cases p.head.state with
  | ready | preparing | armed => exact .inl rfl
  | unknown | homing | striking | faulted | parking | headParked => exact .inr rfl

theorem Part.parkOrder_sameRows : p.SameRows p.parkOrder := by
  rcases p.parkOrder_cases with e | e
  · rw [e]; exact ⟨by simp, by simp, by simp, p.enterParking_jobs_isEmpty⟩
  · rw [e]; exact .refl p

theorem Part.parkExpiry_sameRows : p.SameRows p.parkExpiry := by
  unfold Part.parkExpiry
  split
  · exact Part.SameRows.trans (q := { p.moveBelt .parked with belt.park := none }) ⟨rfl, rfl, rfl, rfl⟩
      (Part.parkOrder_sameRows _)
  · exact .refl p
  · exact .refl p

theorem Part.timersAfterCommit_sameRows (oldHalt oldPark : Nat) : p.SameRows (p.timersAfterCommit oldHalt oldPark) := by
  have hhalt : p.SameRows (if p.haltLength ≠ oldHalt ∧ timerDue p.belt.halt p.haltLength then p.haltExpiry else p) := by
    split
    · exact p.haltExpiry_sameRows
    · exact .refl p
  unfold Part.timersAfterCommit
  dsimp only
  generalize (if p.haltLength ≠ oldHalt ∧ timerDue p.belt.halt p.haltLength then p.haltExpiry else p) = q at hhalt ⊢
  split
  · exact hhalt.trans (Part.parkExpiry_sameRows _)
  · exact hhalt

/-- R179: of the setup page the unguarded fields change, of the rows and the jobs nothing. -/
theorem Part.applyUnguarded_sameRows (u : Unguarded) : (p.setUnguarded u).SameRows (p.applyUnguarded u) :=
  (Part.ringAfterCommit_sameRows _ _).trans (Part.timersAfterCommit_sameRows _ _ _)

theorem Part.applyUnguarded_setupQuiet (u : Unguarded) : (p.applyUnguarded u).setupQuiet = p.setupQuiet :=
  Part.setupQuiet_congr (p.applyUnguarded_sameRows u).tracker (p.applyUnguarded_sameRows u).jobs
    (by rw [(p.applyUnguarded_sameRows u).intake]; rfl)

end Unguarded

/-! ### COMMIT whole (R178 to R181) -/

section CommitWhole

variable (p : Part) (tag : Half)

theorem Part.answer_setup (code : BitVec 4) (r : ResultCode) :
    (p.answer tag code r).setup = { p.setup with result := { tag := tag, code := code, result := r, offset := 0 } } := by
  unfold Part.answer Part.setResult
  split
  · next h => rw [← h]
  · rfl

/-- The part of a COMMIT that has passed validation, its unguarded fields in force. -/
def Part.withUnguarded : Part := p.applyUnguarded (Unguarded.ofStaged p.setup.staged)

theorem Part.commit_valid (h : firstOutOfRange p.setup.staged = none) :
    p.commit tag = answerCommit tag (p.withUnguarded.commitGuarded tag (Guarded.ofStaged p.setup.staged)) := by
  rw [Part.commit, h]; rfl

theorem Part.withUnguarded_setup :
    p.withUnguarded.setup = { p.setup with unguarded := Unguarded.ofStaged p.setup.staged } :=
  (p.applyUnguarded_sameRows _).setup

theorem Part.withUnguarded_intake : p.withUnguarded.intake = p.intake := (p.applyUnguarded_sameRows _).intake

theorem Part.withUnguarded_tracker : p.withUnguarded.tracker = p.tracker := (p.applyUnguarded_sameRows _).tracker

/-- R180: what the guarded fields come to, by whether they differ and whether the part is setup-quiet. -/
theorem Part.commitGuarded_same (g : Guarded) (h : g = p.setup.guarded) :
    p.commitGuarded tag g = (.done, p.setSnapshot none) := if_pos h

theorem Part.commitGuarded_quiet (g : Guarded) (h : g ≠ p.setup.guarded) (hq : p.setupQuiet = true) :
    p.commitGuarded tag g = (.done, (p.applyGuarded g).setSnapshot none) := by
  rw [Part.commitGuarded, if_neg h, if_pos hq]

theorem Part.commitGuarded_busy (g : Guarded) (h : g ≠ p.setup.guarded) (hq : p.setupQuiet = false) :
    p.commitGuarded tag g = (.deferred, p.setSnapshot (some { fields := g, tag := tag })) := by
  rw [Part.commitGuarded, if_neg h, if_neg (by simp [hq])]

theorem Part.commitGuarded_tracker (g : Guarded) : (p.commitGuarded tag g).2.tracker = p.tracker := by
  unfold Part.commitGuarded
  (repeat' split) <;> simp

/-- Of the setup page the guarded fields and the snapshot may change. -/
theorem Part.commitGuarded_setup (g : Guarded) :
    ∃ g' n, (p.commitGuarded tag g).2.setup = { p.setup with guarded := g', snapshot := n } := by
  unfold Part.commitGuarded
  split
  · exact ⟨_, _, p.setSnapshot_setup none⟩
  · split
    · exact ⟨_, _, (Part.setSnapshot_setup _ none).trans (by rw [Part.applyGuarded_setup])⟩
    · exact ⟨_, _, p.setSnapshot_setup _⟩

end CommitWhole

end Sys2Proof.Machine

/-! ## What the work of a pass and of RESTART keeps -/

namespace Sys2Proof.Machine

/-- What no work of a pass or of RESTART takes away: the command result, the counts of row intake, the wait for a sync row, and
the status words that are dirty. -/
structure Part.Keeps (p q : Part) : Prop where
  result : q.setup.result = p.setup.result
  dropped : q.intake.dropped = p.intake.dropped
  accepted : q.intake.accepted = p.intake.accepted
  sync : p.intake.syncPending = true → q.intake.syncPending = true
  dirty : p.dirty ⊆ q.dirty

section Keeps

theorem Part.Keeps.refl (p : Part) : p.Keeps p := ⟨rfl, rfl, rfl, id, List.Subset.refl _⟩

theorem Part.Keeps.trans {p q t : Part} (h : p.Keeps q) (h' : q.Keeps t) : p.Keeps t :=
  ⟨h'.result.trans h.result, h'.dropped.trans h.dropped, h'.accepted.trans h.accepted, h'.sync ∘ h.sync,
    List.Subset.trans h.dirty h'.dirty⟩

/-- A change outside the setup page, row intake and the dirty set. -/
theorem Part.Keeps.of_eq {p q : Part} (hs : q.setup = p.setup) (hi : q.intake = p.intake) (hd : q.dirty = p.dirty) :
    p.Keeps q := ⟨by rw [hs], by rw [hi], by rw [hi], by rw [hi]; exact id, by rw [hd]; exact List.Subset.refl _⟩

/-- Such a change, and then more work. -/
theorem Part.Keeps.after {p q t : Part} (h : q.Keeps t) (hs : q.setup = p.setup) (hi : q.intake = p.intake)
    (hd : q.dirty = p.dirty) : p.Keeps t := (Part.Keeps.of_eq hs hi hd).trans h

/-- With a status word made dirty. -/
theorem Part.Keeps.marked {p q : Part} (h : p.Keeps q) (w : Nat) : p.Keeps (q.mark w) :=
  ⟨h.result, h.dropped, h.accepted, h.sync, fun _ hx => (mem_insertRising _ _ _).2 (.inr (h.dirty hx))⟩

theorem Part.Keeps.foldl {β : Type} {g : Part → β → Part} (h : ∀ (p : Part) b, p.Keeps (g p b)) (l : List β) (p : Part) :
    p.Keeps (l.foldl g p) := by
  induction l generalizing p with
  | nil => exact .refl p
  | cons b l ih => exact (h p b).trans (ih _)

variable (p : Part)

/-! ### Records and lots -/

theorem Part.keeps_dropRecord (r : Record) : p.Keeps (p.dropRecord r) := by
  have hcount : p.Keeps ({ p with recorder.dropped := p.recorder.dropped + 1 }.mark wRecordsDropped) := by
    refine .marked ?_ _
    exact .of_eq rfl rfl rfl
  unfold Part.dropRecord
  cases r
  case lot => exact hcount
  all_goals exact hcount.trans (.of_eq (by simp) (by simp) (by simp))

theorem Part.keeps_emit (r : Record) : p.Keeps (p.emit r) := by
  unfold Part.emit
  split
  · exact .of_eq rfl rfl rfl
  · split
    · split
      · next old rest _ =>
        exact Part.Keeps.trans (q := { p with recorder.outgoing := rest ++ [r] }) (.of_eq rfl rfl rfl) (Part.keeps_dropRecord _ _)
      · exact p.keeps_dropRecord r
    · exact p.keeps_dropRecord r

theorem Part.keeps_raise (k : EventKind) (a : Word) : p.Keeps (p.raise k a) := p.keeps_emit _

theorem Part.keeps_modifyLot (id : Half) (f : Lot → Lot) : p.Keeps (p.modifyLot id f) := .of_eq (by simp) (by simp) (by simp)

theorem Part.keeps_release (i : HideInfo) (o : StampOutcome) (x : Option Word) : p.Keeps (p.release i o x) :=
  (p.keeps_modifyLot _ _).trans (Part.keeps_emit _ _)

theorem Part.keeps_lotTransition (id : Half) (b : Bool) : p.Keeps (p.lotTransition id b) := by
  refine .marked (.marked ?_ _) _
  exact ⟨rfl, rfl, rfl, fun h => h, List.Subset.refl _⟩

theorem Part.keeps_closeLotIfEmpty : p.Keeps p.closeLotIfEmpty := by
  unfold Part.closeLotIfEmpty
  split
  · exact .refl p
  · split
    · exact .refl p
    · refine .trans (.marked ?_ _) (Part.keeps_emit _ _)
      exact .of_eq rfl rfl rfl

theorem Part.keeps_takePackPending : p.Keeps p.takePackPending := by
  have hclear : p.Keeps { p with lots.packPending := false } := .of_eq rfl rfl rfl
  unfold Part.takePackPending
  split
  · dsimp only
    split
    · exact hclear.trans (Part.keeps_lotTransition _ _ _)
    · exact hclear
  · exact .refl p

theorem Part.keeps_closingTest : p.Keeps p.closingTest := by
  unfold Part.closingTest
  dsimp only
  split
  · exact .refl p
  · split
    · exact p.keeps_closeLotIfEmpty.trans ((Part.keeps_takePackPending _).trans (Part.keeps_closeLotIfEmpty _))
    · exact p.keeps_closeLotIfEmpty

theorem Part.keeps_closingTestFor (id : Half) : p.Keeps (p.closingTestFor id) := by
  unfold Part.closingTestFor
  split
  · split
    · exact p.keeps_closingTest
    · exact .refl p
  · exact .refl p

theorem Part.keeps_resolveMark (m : Mark) : p.Keeps (p.resolveMark m) := by
  unfold Part.resolveMark
  dsimp only
  split <;> exact (p.keeps_modifyLot _ _).trans (Part.keeps_emit _ _)

theorem Part.keeps_reexamine (ms : List Mark) : p.Keeps (p.reexamine ms) := by
  induction ms generalizing p with
  | nil => exact .refl p
  | cons m ms ih =>
    unfold Part.reexamine
    split
    · exact .after (ih _) rfl rfl rfl
    · exact (p.keeps_resolveMark m).trans (ih _)

theorem Part.keeps_reexamineMarks : p.Keeps p.reexamineMarks :=
  .after (Part.keeps_reexamine _ _) rfl rfl rfl

/-! ### The snapshot -/

theorem Part.keeps_setSnapshot (x : Option Snapshot) : p.Keeps (p.setSnapshot x) := by
  have hset : p.Keeps { p with setup.snapshot := x } := ⟨rfl, rfl, rfl, fun h => h, List.Subset.refl _⟩
  unfold Part.setSnapshot
  dsimp only
  split
  · exact hset
  · exact hset.marked _

theorem Part.keeps_applyGuarded (g : Guarded) : p.Keeps (p.applyGuarded g) := by
  obtain ⟨hdropped, haccepted, hsync⟩ := p.applyGuarded_intake_kept g
  exact ⟨by simp, hdropped, haccepted, hsync, by simp⟩

theorem Part.keeps_applySnapshotIfQuiet : p.Keeps p.applySnapshotIfQuiet := by
  rcases p.applySnapshotIfQuiet_cases with ⟨-, e⟩ | ⟨n, -, -, e⟩
  · rw [e]; exact .refl p
  · rw [e]; exact ((p.keeps_applyGuarded _).trans (Part.keeps_raise _ _ _)).trans (Part.keeps_setSnapshot _ _)

theorem Part.keeps_quietTests : p.Keeps p.quietTests :=
  p.keeps_applySnapshotIfQuiet.trans (Part.keeps_closingTest _)

/-! ### Jobs and the head -/

theorem Part.keeps_enterHead (st : HeadState) : p.Keeps (p.enterHead st) := by
  unfold Part.enterHead
  dsimp only
  split
  · exact .of_eq rfl rfl rfl
  · refine .marked ?_ _
    exact .of_eq rfl rfl rfl

theorem Part.keeps_setJobState (st : JobState) : p.Keeps (p.setJobState st) := .of_eq rfl rfl rfl

theorem Part.keeps_startJob : p.Keeps p.startJob := by
  unfold Part.startJob
  split
  · split
    · refine .trans ?_ (Part.keeps_setJobState _ _)
      exact .after (Part.keeps_enterHead _ _) rfl rfl rfl
    · exact .refl p
  · exact .refl p

theorem Part.keeps_nameAndStart : p.Keeps p.nameAndStart :=
  .after p.nameJob.keeps_startJob (by simp) (by simp) (by simp)

theorem Part.keeps_enterParking : p.Keeps p.enterParking := by
  have hpark : p.Keeps (p.dropInHand.enterHead .parking) :=
    .after (p.dropInHand.keeps_enterHead _) rfl rfl rfl
  unfold Part.enterParking
  dsimp only
  split
  · split
    · exact hpark
    · exact hpark.trans (.of_eq rfl rfl rfl)
  · exact hpark

theorem Part.keeps_withdraw : p.Keeps p.withdraw := by
  have hdrop : p.Keeps p.dropInHand := .of_eq rfl rfl rfl
  unfold Part.withdraw Part.enterReady
  split
  · split
    · exact hdrop.trans (Part.keeps_enterParking _)
    · exact hdrop.trans (Part.keeps_enterHead _ _)
  · exact .refl p

theorem Part.keeps_requestStrike (j : Job) : p.Keeps (p.requestStrike j) := by
  have hset := p.keeps_setJobState .striking
  unfold Part.requestStrike
  dsimp only
  split
  · exact hset.trans (.after (Part.keeps_enterHead _ _) rfl rfl rfl)
  · exact hset

theorem Part.keeps_finishJob (j : Job) (o : StampOutcome) : p.Keeps (p.finishJob j o) :=
  ((p.keeps_release _ _ _).trans (Part.keeps_applySnapshotIfQuiet _)).trans (Part.keeps_closingTestFor _ _)

theorem Part.keeps_finishCurrent (o : StampOutcome) : p.Keeps (p.finishCurrent o) := by
  unfold Part.finishCurrent
  split
  · exact .after (Part.keeps_finishJob _ _ _) rfl rfl rfl
  · exact .refl p

theorem Part.keeps_missWaiting (r : MissReason) (js : List Job) : p.Keeps (p.missWaiting r js) := by
  induction js generalizing p with
  | nil => exact .refl p
  | cons j js ih =>
    unfold Part.missWaiting
    refine .trans ?_ (ih _)
    exact .after (Part.keeps_finishJob _ _ _) rfl rfl rfl

theorem Part.keeps_missPassed (kept js : List Job) : p.Keeps (p.missPassed kept js) := by
  induction js generalizing p kept with
  | nil => exact .refl p
  | cons j js ih =>
    unfold Part.missPassed
    split
    · refine .trans ?_ (ih _ _)
      exact .after (Part.keeps_finishJob _ _ _) rfl rfl rfl
    · exact ih _ _

theorem Part.keeps_settleCurrent : p.Keeps p.settleCurrent := by
  unfold Part.settleCurrent
  split
  · exact .refl p
  · split
    · split
      · exact p.keeps_finishCurrent _
      · exact (p.keeps_finishCurrent _).trans (Part.keeps_withdraw _)
      · exact p.keeps_requestStrike _
      · exact .refl p
    · exact .refl p

theorem Part.keeps_settleIncrement : p.Keeps p.settleIncrement :=
  (p.keeps_settleCurrent.trans (Part.keeps_missPassed _ _ _)).trans (Part.keeps_nameAndStart _)

theorem Part.keeps_restartCurrent : p.Keeps p.restartCurrent := by
  unfold Part.restartCurrent
  split
  · exact .refl p
  · split
    · exact .refl p
    · exact (p.keeps_finishCurrent _).trans (Part.keeps_withdraw _)
    · exact (p.keeps_finishCurrent _).trans (Part.keeps_withdraw _)
    · exact p.keeps_finishCurrent _

theorem Part.keeps_schedulerRestart : p.Keeps p.schedulerRestart :=
  (p.keeps_restartCurrent.trans (Part.keeps_missWaiting _ _ _)).trans (.of_eq rfl rfl rfl)

/-! ### Closing -/

/-- The hide as it is handed over: a close by a truncate stage or by RESTART marks it (R45, R46). -/
def CloseCause.marked (c : CloseCause) (h : Hide) : Hide := if c = .row then h else { h with flags.truncated := true }

/-- The closed hides' counter (R42). -/
def Part.countClosed (p : Part) : Part := { p with tracker.closed := p.tracker.closed + 1 }.mark wClosed

theorem Part.keeps_countClosed : p.Keeps p.countClosed := by
  refine .marked ?_ _
  exact .of_eq rfl rfl rfl

variable {p} in
/-- An owner that holds no hide has nothing closed. -/
theorem Part.closeHide_of_none (c : CloseCause) {o : Owner} (h : (p.breachOwned o).hideOf o = none) :
    p.closeHide c o = p.breachOwned o := by
  unfold Part.closeHide
  dsimp only
  rw [h]

variable {p} in
/-- The close of a hide, step by step (R42). -/
theorem Part.closeHide_of_some (c : CloseCause) {o : Owner} {x : Hide} (h : (p.breachOwned o).hideOf o = some x) :
    p.closeHide c o = ((((p.breachOwned o).takeHide o.source c (c.marked x)).setHide o none).noteClosed o
      (c.marked x)).reexamineMarks.countClosed := by
  unfold Part.closeHide
  dsimp only
  rw [h]
  rfl

theorem Part.keeps_leaveUnstamped (i : HideInfo) (r : UnstampedReason) : p.Keeps (p.leaveUnstamped i r) :=
  (p.keeps_release _ _ _).trans (Part.keeps_closingTestFor _ _)

theorem Part.keeps_handOn (i : HideInfo) : p.Keeps (p.handOn i) := by
  unfold Part.handOn
  split
  · exact p.keeps_leaveUnstamped _ _
  · exact .after (Part.keeps_nameAndStart _) (by simp) (by simp) (by simp)
  · exact p.keeps_leaveUnstamped _ _

theorem Part.keeps_takeHide (x : Source) (c : CloseCause) (h : Hide) : p.Keeps (p.takeHide x c h) := by
  unfold Part.takeHide
  dsimp only
  split
  · exact p.keeps_leaveUnstamped _ _
  · exact p.keeps_handOn _

theorem Part.keeps_breachOwned (o : Owner) : p.Keeps (p.breachOwned o) := .of_eq (by simp) (by simp) (by simp)

theorem Part.keeps_closeHide (c : CloseCause) (o : Owner) : p.Keeps (p.closeHide c o) := by
  rcases h : (p.breachOwned o).hideOf o with - | x
  · rw [Part.closeHide_of_none c h]
    exact p.keeps_breachOwned o
  · rw [Part.closeHide_of_some c h]
    have htaken : p.Keeps ((p.breachOwned o).takeHide o.source c (c.marked x)) :=
      (p.keeps_breachOwned o).trans (Part.keeps_takeHide _ _ _ _)
    refine .trans ?_ (Part.keeps_countClosed _)
    refine .trans ?_ (Part.keeps_reexamineMarks _)
    exact htaken.trans (.of_eq (by simp) (by simp) (by simp))

theorem Part.keeps_closeAll (c : CloseCause) (os : List Owner) : p.Keeps (p.closeAll c os) :=
  .foldl (fun p o => p.keeps_closeHide c o) os p

theorem Part.keeps_takeRestart : p.Keeps p.takeRestart :=
  (p.keeps_schedulerRestart.trans (Part.keeps_closeAll _ _ _)).trans
    (.after (Part.keeps_quietTests _) rfl rfl rfl)

theorem Part.keeps_takeRestarts (n : Nat) : p.Keeps (p.takeRestarts n) := by
  induction n generalizing p with
  | zero => exact .refl p
  | succ n ih => exact p.keeps_takeRestart.trans (ih _)

theorem Part.keeps_takeWaitingNotice : p.Keeps p.takeWaitingNotice := .of_eq (by simp) (by simp) (by simp)

theorem Part.keeps_passEnd : p.Keeps p.passEnd := by
  unfold Part.passEnd
  dsimp only
  split
  · exact p.keeps_takeWaitingNotice.trans (Part.keeps_quietTests _)
  · refine .trans ?_ (Part.keeps_quietTests _)
    refine .trans ?_ (Part.keeps_takeWaitingNotice _)
    refine .trans ?_ (Part.keeps_takeRestarts _ _)
    have hfree : p.Keeps { p with free := p.free + 1, tracker.restartsWaiting := 0 } := .of_eq rfl rfl rfl
    split
    · refine .trans ?_ (Part.keeps_quietTests _)
      split
      · exact hfree.trans (Part.keeps_takeWaitingNotice _)
      · exact hfree
    · split
      · exact hfree.trans (Part.keeps_takeWaitingNotice _)
      · exact hfree

theorem Part.keeps_exchangeLists : p.Keeps p.exchangeLists := by
  refine .trans ?_ (Part.keeps_passEnd _)
  exact .of_eq rfl rfl rfl

/-! ### The stages of a pass -/

theorem Part.keeps_birthLot : p.Keeps p.birthLot.2 := by
  have hcount : p.Keeps { p with lots.openLot := p.lots.openLot.addBirth, lots.packCounter := p.lots.packCounter + 1 } :=
    .of_eq rfl rfl rfl
  unfold Part.birthLot
  split
  · split
    · exact .of_eq rfl rfl rfl
    · dsimp only
      split
      · exact hcount.trans (.of_eq rfl rfl rfl)
      · exact hcount
  · dsimp only
    split
    · exact hcount.trans (Part.keeps_lotTransition _ _ _)
    · exact hcount

theorem Part.keeps_drawNumber : p.Keeps p.drawNumber.2 := by
  refine .marked ?_ _
  exact .of_eq rfl rfl rfl

theorem Part.keeps_birthAt (o : Owner) (g : SegPlan) : p.Keeps (p.birthAt o g) := by
  refine (p.keeps_drawNumber.trans (Part.keeps_birthLot _)).trans ?_
  exact .of_eq (by simp [Part.birthAt]) (by simp) (by simp [Part.birthAt])

theorem Part.keeps_birth (g : SegPlan) : p.Keeps (p.birth g).2 := by
  unfold Part.birth
  split
  · next i _ => exact p.keeps_birthAt (.entry i) g
  · split
    · exact .refl p
    · exact (p.keeps_birthAt _ g).trans (Part.keeps_raise _ _ _)

theorem Part.keeps_flagFragment (o : Owner) : p.Keeps (p.flagFragment o) := by
  unfold Part.flagFragment
  split
  · split
    · exact .refl p
    · exact .after (Part.keeps_raise _ _ _) (by simp) (by simp) (by simp)
  · exact .refl p

theorem Part.keeps_ownSegment (g : SegPlan) : p.Keeps (p.ownSegment g) := by
  unfold Part.ownSegment
  dsimp only
  have hown : p.Keeps (if (p.ownerSet g).isEmpty then p.birth g else p.mergeOwners (p.ownerSet g)).2 := by
    split
    · exact p.keeps_birth g
    · exact .of_eq (by simp) (by simp) (by simp)
  generalize (if (p.ownerSet g).isEmpty then p.birth g else p.mergeOwners (p.ownerSet g)) = x at hown ⊢
  split
  · exact hown.trans (.after (Part.keeps_flagFragment _ _) rfl rfl rfl)
  · exact hown.trans (.of_eq rfl rfl rfl)

theorem Part.keeps_holeLimit (e : Nat) : p.Keeps (p.holeLimit e) := by
  unfold Part.holeLimit
  split
  · split
    · exact .refl p
    · exact .after (Part.keeps_raise _ _ _) rfl rfl rfl
  · exact .refl p

theorem Part.keeps_classifyGap (g : Gap) : p.Keeps (p.classifyGap g) := by
  have hbreach : p.Keeps (p.breachOver g) := .of_eq (by simp) (by simp) (by simp)
  unfold Part.classifyGap
  split
  · unfold Part.holeBirth
    split
    · split
      · exact .of_eq rfl rfl rfl
      · exact p.keeps_holeLimit _
    · exact p.keeps_holeLimit _
  · split
    · exact .of_eq (by simp) (by simp) (by simp)
    · exact hbreach.trans (Part.keeps_holeLimit _ _)
  · exact hbreach

end Keeps

end Sys2Proof.Machine

/-! ## Owners, their hides, and closing every one of them -/

namespace Sys2Proof.Machine

/-! ### Which owners hold a hide -/

theorem tableGet_set {α : Type} (t : List (Option α)) (i j : Nat) (x : Option α) :
    tableGet (t.set i x) j = if i = j ∧ j < t.length then x else tableGet t j := by
  simp only [tableGet, List.getD_eq_getElem?_getD, List.getElem?_set]
  by_cases hij : i = j
  · subst hij
    by_cases hlt : i < t.length
    · simp [hlt]
    · simp [hlt]
  · simp [hij]

theorem mem_openEntriesFrom (t : List (Option Hide)) (n : Nat) (o : Owner) :
    o ∈ openEntriesFrom t n ↔ ∃ i, o = .entry (n + i) ∧ (tableGet t i).isSome = true := by
  induction t generalizing n with
  | nil => simp [openEntriesFrom, tableGet]
  | cons x t ih =>
    have htail : (∃ i, o = .entry (n + 1 + i) ∧ (tableGet t i).isSome = true) ↔
        ∃ i, o = .entry (n + (i + 1)) ∧ (tableGet (x :: t) (i + 1)).isSome = true := by
      simp only [tableGet, List.getD_cons_succ, Nat.add_assoc, Nat.add_comm 1]
    cases x with
    | none =>
      rw [openEntriesFrom, ih, htail]
      refine ⟨fun ⟨i, h⟩ => ⟨i + 1, h⟩, fun ⟨i, ho, hi⟩ => ?_⟩
      cases i with
      | zero => simp [tableGet] at hi
      | succ i => exact ⟨i, ho, hi⟩
    | some h =>
      rw [openEntriesFrom, List.mem_cons, ih, htail]
      constructor
      · rintro (rfl | ⟨i, hi⟩)
        · exact ⟨0, rfl, rfl⟩
        · exact ⟨i + 1, hi⟩
      · rintro ⟨i, ho, hi⟩
        cases i with
        | zero => exact .inl ho
        | succ i => exact .inr ⟨i, ho, hi⟩

theorem openEntriesFrom_nodup (t : List (Option Hide)) (n : Nat) : (openEntriesFrom t n).Nodup := by
  induction t generalizing n with
  | nil => exact List.nodup_nil
  | cons x t ih =>
    cases x with
    | none => exact ih _
    | some h =>
      refine List.nodup_cons.2 ⟨fun hmem => ?_, ih _⟩
      obtain ⟨i, hi, -⟩ := (mem_openEntriesFrom _ _ _).1 hmem
      simp only [Owner.entry.injEq] at hi
      omega

theorem openEntriesFrom_length (t : List (Option Hide)) (n : Nat) :
    (openEntriesFrom t n).length = (t.filterMap id).length := by
  induction t generalizing n with
  | nil => rfl
  | cons x t ih => cases x <;> simp [openEntriesFrom, ih]

section Owners

variable (p : Part)

theorem Part.mem_openOwners (o : Owner) : o ∈ p.openOwners ↔ (p.hideOf o).isSome = true := by
  unfold Part.openOwners
  rw [List.mem_append, mem_openEntriesFrom]
  cases o with
  | entry i => cases hs : p.tracker.spill <;> simp [Part.hideOf]
  | spill => cases hs : p.tracker.spill <;> simp [Part.hideOf, hs]

theorem Part.openOwners_nodup : p.openOwners.Nodup := by
  refine List.nodup_append.2 ⟨openEntriesFrom_nodup _ _, by split <;> simp, fun a ha b hb hab => ?_⟩
  obtain ⟨i, rfl, -⟩ := (mem_openEntriesFrom _ _ _).1 ha
  subst hab
  split at hb <;> simp at hb

theorem Part.openOwners_length : p.openOwners.length = p.openHides.length := by
  unfold Part.openOwners Part.openHides
  rw [List.length_append, List.length_append, openEntriesFrom_length]
  cases p.tracker.spill <;> rfl

theorem Part.mem_openHides (h : Hide) : h ∈ p.openHides ↔ ∃ o, p.hideOf o = some h := by
  unfold Part.openHides
  constructor
  · intro hmem
    rcases List.mem_append.1 hmem with hm | hm
    · obtain ⟨x, hx, rfl⟩ := List.mem_filterMap.1 hm
      obtain ⟨i, hi⟩ := List.mem_iff_getElem?.1 hx
      exact ⟨.entry i, by simpa [Part.hideOf, tableGet] using by rw [hi]; rfl⟩
    · exact ⟨.spill, Option.mem_toList.1 hm⟩
  · rintro ⟨o, ho⟩
    cases o with
    | entry i =>
      refine List.mem_append_left _ (List.mem_filterMap.2 ⟨some h, ?_, rfl⟩)
      have hi : p.tracker.table.getD i none = some h := ho
      rw [List.getD_eq_getElem?_getD] at hi
      cases hg : p.tracker.table[i]? with
      | none => simp [hg] at hi
      | some x => rw [hg] at hi; exact List.mem_iff_getElem?.2 ⟨i, hg.trans (congrArg some hi)⟩
    | spill => exact List.mem_append_right _ (Option.mem_toList.2 ho)

theorem Part.openHides_eq_nil_iff : p.openHides = [] ↔ ∀ o, p.hideOf o = none := by
  rw [List.eq_nil_iff_forall_not_mem]
  simp only [Part.mem_openHides, not_exists, Option.eq_none_iff_forall_ne_some]
  exact forall_comm

theorem Part.closeOrder_perm (os : List Owner) : (p.closeOrder os).Perm os := by
  have hinsert : ∀ (le : Owner → Owner → Bool) x l, (insertBy le x l).Perm (x :: l) := by
    intro le x l
    induction l with
    | nil => exact .refl _
    | cons y l ih =>
      unfold insertBy
      split
      · exact (ih.cons y).trans (.swap x y l)
      · exact .refl _
  have hsort : ∀ (l acc : List Owner),
      (l.foldl (fun acc x => insertBy p.closesBefore x acc) acc).Perm (l ++ acc) := by
    intro l
    induction l with
    | nil => exact fun _ => .refl _
    | cons x l ih => exact fun acc => (ih _).trans (((hinsert _ x acc).append_left l).trans List.perm_middle)
  exact (hsort os []).trans (.of_eq (List.append_nil os))

/-! ### The number and the lot of an owner's hide -/

/-- What the hide of an owner is told by in its record: number and lot. -/
def Part.idOf (o : Owner) : Option (Half × Half) := (p.hideOf o).map (fun h => (h.number, h.lot))

theorem Part.idOf_eq_none_iff (o : Owner) : p.idOf o = none ↔ p.hideOf o = none := Option.map_eq_none_iff

theorem Part.setHide_hideOf (o x : Owner) (h : Option Hide) (hold : (p.hideOf o).isSome = true) :
    (p.setHide o h).hideOf x = if x = o then h else p.hideOf x := by
  cases o with
  | spill => cases x <;> simp [Part.setHide, Part.hideOf]
  | entry i =>
    cases x with
    | spill => simp [Part.setHide, Part.hideOf]
    | entry j =>
      simp only [Part.setHide, Part.hideOf, tableGet_set, Owner.entry.injEq]
      by_cases hij : j = i
      · subst hij
        have hlt : j < p.tracker.table.length := by
          by_contra hge
          have : tableGet p.tracker.table j = none := by
            simp [tableGet, List.getElem?_eq_none (Nat.le_of_not_lt hge)]
          simp [Part.hideOf, this] at hold
        simp [hlt]
      · simp [hij, Ne.symm hij]

theorem Part.setHide_hideOf_self_none (o : Owner) : p.hideOf o = none → ∀ x, (p.setHide o none).hideOf x = p.hideOf x := by
  intro hnone x
  cases o with
  | spill => cases x <;> simp_all [Part.setHide, Part.hideOf]
  | entry i =>
    cases x with
    | spill => rfl
    | entry j =>
      simp only [Part.setHide, Part.hideOf, tableGet_set]
      split
      · next h => obtain ⟨rfl, -⟩ := h; exact hnone.symm
      · rfl

theorem Part.modifyHide_idOf (o x : Owner) (f : Hide → Hide) (hf : ∀ h, ((f h).number, (f h).lot) = (h.number, h.lot)) :
    (p.modifyHide o f).idOf x = p.idOf x := by
  unfold Part.modifyHide Part.idOf
  cases ho : p.hideOf o with
  | none => rw [Option.map_none, p.setHide_hideOf_self_none o ho]
  | some h =>
    rw [p.setHide_hideOf _ _ _ (by simp [ho])]
    split
    · next hx => subst hx; simp [ho, hf h]
    · rfl

theorem Part.breach_idOf (h : Nat) (x : Owner) : (p.breach h).idOf x = p.idOf x := by
  unfold Part.breach
  split
  · exact p.modifyHide_idOf _ x _ (fun _ => rfl)
  · rfl

theorem Part.breachOwned_idOf (o x : Owner) : (p.breachOwned o).idOf x = p.idOf x := by
  cases o with
  | entry e => exact foldl_keep (f := fun q : Part => q.idOf x) (fun q h => q.breach_idOf h x) _ _
  | spill => rfl

theorem Part.breachOwned_hideOf_eq_none (o x : Owner) : (p.breachOwned o).hideOf x = none ↔ p.hideOf x = none := by
  rw [← Part.idOf_eq_none_iff, ← Part.idOf_eq_none_iff, Part.breachOwned_idOf]

/-- A breach leaves of the tracker everything but the hides. -/
theorem Part.breachOwned_tracker (o : Owner) : ∃ t s, (p.breachOwned o).tracker = { p.tracker with table := t, spill := s } := by
  have hbreach : ∀ (q : Part) h, ∃ t s, (q.breach h).tracker = { q.tracker with table := t, spill := s } := by
    intro q h
    unfold Part.breach
    split <;> exact ⟨_, _, rfl⟩
  have hfold : ∀ (l : List Nat) (q : Part), ∃ t s, (l.foldl Part.breach q).tracker = { q.tracker with table := t, spill := s } := by
    intro l
    induction l with
    | nil => exact fun q => ⟨_, _, rfl⟩
    | cons h l ih =>
      intro q
      obtain ⟨t, s, hq⟩ := hbreach q h
      obtain ⟨t', s', hl⟩ := ih (q.breach h)
      exact ⟨t', s', by rw [List.foldl_cons, hl, hq]⟩
  cases o with
  | entry e => exact hfold _ p
  | spill => exact ⟨_, _, rfl⟩

/-! ### Closing -/

variable {p} in
/-- The tracker after the close of a hide (R42): its place is free, the counter one up. -/
theorem Part.closeHide_tracker (c : CloseCause) {o : Owner} (h : (p.hideOf o).isSome = true) :
    (p.closeHide c o).tracker =
      { ((p.breachOwned o).setHide o none).tracker with closed := p.tracker.closed + 1 } := by
  obtain ⟨x, hx⟩ : ∃ x, (p.breachOwned o).hideOf o = some x := by
    rw [← Option.ne_none_iff_exists', ne_eq, Part.breachOwned_hideOf_eq_none]
    exact Option.isSome_iff_ne_none.1 h
  obtain ⟨t, s, hb⟩ := p.breachOwned_tracker o
  rw [Part.closeHide_of_some c hx]
  have hset : ∀ q : Part, q.tracker = (p.breachOwned o).tracker →
      (q.setHide o none).tracker = ((p.breachOwned o).setHide o none).tracker := by
    intro q hq; cases o <;> simp [Part.setHide, hq]
  simp only [Part.countClosed, Part.mark, Part.reexamineMarks_tracker, Part.noteClosed_tracker,
    hset _ (Part.takeHide_tracker _ _ _ _)]
  have hclosed : ((p.breachOwned o).setHide o none).tracker.closed = p.tracker.closed := by
    cases o <;> simp [Part.setHide, hb]
  rw [hclosed]

theorem Part.closeHide_idOf (c : CloseCause) (o x : Owner) :
    (p.closeHide c o).idOf x = if x = o then none else p.idOf x := by
  by_cases hnone : p.hideOf o = none
  · rw [Part.closeHide_of_none c ((p.breachOwned_hideOf_eq_none o o).2 hnone), Part.breachOwned_idOf]
    split
    · next hx => rw [hx]; exact (p.idOf_eq_none_iff o).2 hnone
    · rfl
  · have hsome : (p.hideOf o).isSome = true := Option.isSome_iff_ne_none.2 hnone
    have hkept : ((p.breachOwned o).hideOf o).isSome = true := by
      rw [Option.isSome_iff_ne_none, ne_eq, Part.breachOwned_hideOf_eq_none]; exact hnone
    have htracker : (p.closeHide c o).hideOf x = ((p.breachOwned o).setHide o none).hideOf x := by
      cases x <;> simp [Part.hideOf, Part.closeHide_tracker c hsome]
    rw [Part.idOf, htracker, Part.setHide_hideOf _ _ _ _ hkept]
    split
    · rfl
    · exact p.breachOwned_idOf o x

theorem Part.closeAll_idOf (c : CloseCause) (os : List Owner) (x : Owner) :
    (p.closeAll c os).idOf x = if x ∈ os then none else p.idOf x := by
  induction os generalizing p with
  | nil => simp [Part.closeAll]
  | cons o os ih =>
    rw [Part.closeAll, List.foldl_cons, ← Part.closeAll, ih, Part.closeHide_idOf]
    by_cases hx : x = o <;> by_cases hmem : x ∈ os <;> simp [hx, hmem]

/-- Of the tracker's other fields a close changes only the counter of closed hides. -/
theorem Part.closeHide_tracker_kept (c : CloseCause) (o : Owner) :
    (p.closeHide c o).tracker.counter = p.tracker.counter ∧ (p.closeHide c o).tracker.prev = p.tracker.prev ∧
      (p.closeHide c o).tracker.cur = p.tracker.cur := by
  obtain ⟨t, s, hb⟩ := p.breachOwned_tracker o
  by_cases hnone : p.hideOf o = none
  · rw [Part.closeHide_of_none c ((p.breachOwned_hideOf_eq_none o o).2 hnone), hb]
    exact ⟨rfl, rfl, rfl⟩
  · rw [Part.closeHide_tracker c (Option.isSome_iff_ne_none.2 hnone)]
    cases o <;> exact ⟨by simp [Part.setHide, hb], by simp [Part.setHide, hb], by simp [Part.setHide, hb]⟩

@[simp] theorem Part.closeAll_counter (c : CloseCause) (os : List Owner) :
    (p.closeAll c os).tracker.counter = p.tracker.counter :=
  foldl_keep (f := fun q : Part => q.tracker.counter) (fun q o => (q.closeHide_tracker_kept c o).1) _ _

/-- Closing hides counts each of them (R42). -/
theorem Part.closeAll_closed (c : CloseCause) (os : List Owner) (hnodup : os.Nodup)
    (hall : ∀ o ∈ os, (p.hideOf o).isSome = true) :
    (p.closeAll c os).tracker.closed = p.tracker.closed + BitVec.ofNat 32 os.length := by
  induction os generalizing p with
  | nil => simp [Part.closeAll]
  | cons o os ih =>
    obtain ⟨hfresh, htail⟩ := List.nodup_cons.1 hnodup
    have hrest : ∀ x ∈ os, ((p.closeHide c o).hideOf x).isSome = true := by
      intro x hx
      rw [Option.isSome_iff_ne_none, ne_eq, ← Part.idOf_eq_none_iff, Part.closeHide_idOf,
        if_neg (fun h : x = o => hfresh (h ▸ hx)), Part.idOf_eq_none_iff]
      exact Option.isSome_iff_ne_none.1 (hall x (List.mem_cons_of_mem _ hx))
    rw [Part.closeAll, List.foldl_cons, ← Part.closeAll, ih _ htail hrest,
      Part.closeHide_tracker c (hall o (List.mem_cons_self ..))]
    simp only [List.length_cons, BitVec.ofNat_add]
    ac_rfl

/-- RESTART's closes (R46): every open hide, each once. -/
theorem Part.closeAll_closeOrder (c : CloseCause) :
    let q := p.closeAll c (p.closeOrder p.openOwners)
    (∀ o, q.hideOf o = none) ∧ q.tracker.closed = p.tracker.closed + BitVec.ofNat 32 p.openHides.length := by
  have hmem : ∀ o, o ∈ p.closeOrder p.openOwners ↔ (p.hideOf o).isSome = true := fun o =>
    (p.closeOrder_perm _).mem_iff.trans (p.mem_openOwners o)
  refine ⟨fun o => ?_, ?_⟩
  · rw [← Part.idOf_eq_none_iff, Part.closeAll_idOf]
    split
    · rfl
    · next ho => rw [Part.idOf_eq_none_iff]; simpa [hmem] using ho
  · rw [Part.closeAll_closed p c _ ((p.closeOrder_perm _).nodup_iff.2 p.openOwners_nodup) (fun o ho => (hmem o).1 ho),
      (p.closeOrder_perm _).length_eq, Part.openOwners_length]

/-! ### A tracker with nothing open -/

/-- No open hide, and empty lists: what RESTART leaves (R46, R64). -/
structure Part.Emptied (q : Part) : Prop where
  hides : q.openHides = []
  prev : q.tracker.prev = []
  cur : q.tracker.cur = []
  prevRuns : q.holes.prevRuns = []
  curRuns : q.holes.curRuns = []

variable {p} in
theorem Part.Emptied.of_eq {q : Part} (h : p.Emptied) (ht : q.tracker = p.tracker) (hh : q.holes = p.holes) : q.Emptied := by
  obtain ⟨hhides, hprev, hcur, hprevRuns, hcurRuns⟩ := h
  unfold Part.openHides at hhides
  exact ⟨by rw [Part.openHides, ht]; exact hhides, by rw [ht]; exact hprev, by rw [ht]; exact hcur,
    by rw [hh]; exact hprevRuns, by rw [hh]; exact hcurRuns⟩

theorem Part.emptyLists_emptied (h : ∀ o, p.hideOf o = none) : p.emptyLists.Emptied :=
  ⟨p.openHides_eq_nil_iff.2 h, rfl, rfl, rfl, rfl⟩

theorem Part.takeRestart_emptied : p.takeRestart.Emptied := by
  have hclosed := (p.schedulerRestart.closeAll_closeOrder .restart).1
  unfold Part.takeRestart
  exact (Part.emptyLists_emptied _ hclosed).of_eq (Part.quietTests_tracker _) (Part.quietTests_holes _)

theorem Part.takeRestarts_emptied (n : Nat) : (p.takeRestarts (n + 1)).Emptied := by
  induction n generalizing p with
  | zero => exact p.takeRestart_emptied
  | succ n ih =>
    rw [Part.takeRestarts]
    exact ih p.takeRestart

end Owners

end Sys2Proof.Machine

/-! ## The row pass: its end, what every stage leaves for it, and the take -/

namespace Sys2Proof.Machine

section PassEnd

variable (p : Part)

/-! ### A MASKED_BEAMS notice at the end of a pass (R15) -/

theorem Part.takeWaitingNotice_tracker :
    ∃ t s, p.takeWaitingNotice.tracker = { p.tracker with table := t, spill := s, noticeWaiting := false } := by
  unfold Part.takeWaitingNotice
  split
  · exact ⟨_, _, rfl⟩
  · next h => exact ⟨p.tracker.table, p.tracker.spill, by rw [← Bool.eq_false_of_not_eq_true h]⟩

theorem Part.takeNotice_openHides : p.takeNotice.openHides = p.openHides.map Hide.flagMasked := by
  unfold Part.takeNotice Part.openHides
  dsimp only
  rw [List.map_append, List.filterMap_map, List.map_filterMap]
  cases p.tracker.spill <;> rfl

theorem Part.takeWaitingNotice_openHides : p.takeWaitingNotice.openHides =
    if p.tracker.noticeWaiting then p.openHides.map Hide.flagMasked else p.openHides := by
  unfold Part.takeWaitingNotice
  split
  · exact p.takeNotice_openHides
  · rfl

theorem Part.takeWaitingNotice_numbers :
    p.takeWaitingNotice.openHides.map Hide.number = p.openHides.map Hide.number := by
  rw [Part.takeWaitingNotice_openHides]
  split
  · rw [List.map_map]; rfl
  · rfl

theorem Part.takeWaitingNotice_flagged (h : p.tracker.noticeWaiting = true) :
    ∀ x ∈ p.takeWaitingNotice.openHides, x.flags.maskedBeams = true := by
  rw [Part.takeWaitingNotice_openHides, if_pos h]
  intro x hx
  obtain ⟨y, -, rfl⟩ := List.mem_map.1 hx
  rfl

@[simp] theorem Part.quietTests_openHides : p.quietTests.openHides = p.openHides := by
  unfold Part.openHides; rw [Part.quietTests_tracker]

variable {p} in
theorem Part.Emptied.takeWaitingNotice (h : p.Emptied) : p.takeWaitingNotice.Emptied := by
  obtain ⟨hhides, hprev, hcur, hprevRuns, hcurRuns⟩ := h
  obtain ⟨t, s, ht⟩ := p.takeWaitingNotice_tracker
  refine ⟨?_, by rw [ht]; exact hprev, by rw [ht]; exact hcur, by simpa using hprevRuns, by simpa using hcurRuns⟩
  rw [Part.takeWaitingNotice_openHides, hhides]
  simp

/-! ### The end of a pass (R15, R21, R46, R53) -/

theorem Part.passEnd_of_none_waiting (h : p.tracker.restartsWaiting = 0) : p.passEnd = p.takeWaitingNotice.quietTests := by
  unfold Part.passEnd
  dsimp only
  rw [if_pos h]

/-- With a RESTART waiting: whatever order it takes against the notice and the tests, it is taken, then the notice is, and
the tests come last (log entry 11). -/
theorem Part.passEnd_of_waiting (h : p.tracker.restartsWaiting ≠ 0) :
    ∃ (q : Part) (n : Nat), q.tracker.restartsWaiting = 0 ∧ p.passEnd = ((q.takeRestarts (n + 1)).takeWaitingNotice).quietTests := by
  obtain ⟨n, hn⟩ := Nat.exists_eq_succ_of_ne_zero h
  unfold Part.passEnd
  dsimp only
  rw [if_neg h, hn]
  refine ⟨_, n, ?_, rfl⟩
  split <;> split <;> simp

theorem Part.passEnd_emptied (h : p.tracker.restartsWaiting ≠ 0) : p.passEnd.Emptied := by
  obtain ⟨q, n, -, e⟩ := p.passEnd_of_waiting h
  rw [e]
  exact (q.takeRestarts_emptied n).takeWaitingNotice.of_eq (Part.quietTests_tracker _) (Part.quietTests_holes _)

theorem Part.passEnd_restartsWaiting : p.passEnd.tracker.restartsWaiting = 0 := by
  by_cases h : p.tracker.restartsWaiting = 0
  · rw [p.passEnd_of_none_waiting h]; simpa using h
  · obtain ⟨q, n, hq, e⟩ := p.passEnd_of_waiting h
    rw [e]; simpa using hq

theorem Part.passEnd_noticeWaiting : p.passEnd.tracker.noticeWaiting = false := by
  have hlast : ∀ q : Part, q.takeWaitingNotice.quietTests.tracker.noticeWaiting = false := by
    intro q
    obtain ⟨t, s, ht⟩ := q.takeWaitingNotice_tracker
    rw [Part.quietTests_tracker, ht]
  by_cases h : p.tracker.restartsWaiting = 0
  · rw [p.passEnd_of_none_waiting h]; exact hlast p
  · obtain ⟨q, n, -, e⟩ := p.passEnd_of_waiting h
    rw [e]; exact hlast _

theorem Part.passEnd_flagged (h : p.tracker.noticeWaiting = true) :
    ∀ x ∈ p.passEnd.openHides, x.flags.maskedBeams = true := by
  by_cases hr : p.tracker.restartsWaiting = 0
  · rw [p.passEnd_of_none_waiting hr, Part.quietTests_openHides]
    exact p.takeWaitingNotice_flagged h
  · rw [(p.passEnd_emptied hr).hides]
    simp

/-- The end of a pass leaves the current lists as they are, and empty lists empty. -/
theorem Part.passEnd_current (h : p.tracker.cur = []) (hr : p.holes.curRuns = []) :
    p.passEnd.tracker.cur = [] ∧ p.passEnd.holes.curRuns = [] := by
  by_cases hw : p.tracker.restartsWaiting = 0
  · obtain ⟨t, s, ht⟩ := p.takeWaitingNotice_tracker
    rw [p.passEnd_of_none_waiting hw, Part.quietTests_tracker, Part.quietTests_holes, ht]
    exact ⟨h, by simpa using hr⟩
  · exact ⟨(p.passEnd_emptied hw).cur, (p.passEnd_emptied hw).curRuns⟩

/-- Stage 8 done: no pass, nothing in the current lists, and nothing waiting. -/
structure Part.PassOver (q : Part) : Prop where
  pass : q.tracker.pass = none
  cur : q.tracker.cur = []
  curRuns : q.holes.curRuns = []
  restarts : q.tracker.restartsWaiting = 0
  notice : q.tracker.noticeWaiting = false

/-- The lists exchanged and the pass ended (R26, R53), before what waits for the end of the pass. -/
def Part.exchanged : Part :=
  { p with
    tracker.prev := p.tracker.cur
    tracker.cur := []
    tracker.pass := none
    holes.prevRuns := p.holes.curRuns
    holes.curRuns := [] }

theorem Part.exchangeLists_eq : p.exchangeLists = p.exchanged.passEnd := rfl

theorem Part.exchangeLists_over : p.exchangeLists.PassOver := by
  obtain ⟨hcur, hruns⟩ := p.exchanged.passEnd_current rfl rfl
  exact ⟨p.exchangeLists_pass, hcur, hruns, Part.passEnd_restartsWaiting _, Part.passEnd_noticeWaiting _⟩

theorem Part.exchangeLists_flagged (h : p.tracker.noticeWaiting = true) :
    ∀ x ∈ p.exchangeLists.openHides, x.flags.maskedBeams = true := Part.passEnd_flagged _ h

/-- R26, R53: the current lists become the previous ones, and with no RESTART waiting nothing else of this goes. -/
theorem Part.exchangeLists_of_none_waiting (h : p.tracker.restartsWaiting = 0) :
    let t := p.exchangeLists
    t.tracker.prev = p.tracker.cur ∧ t.holes.prevRuns = p.holes.curRuns ∧ t.holes.table = p.holes.table ∧
      t.sched = p.sched ∧ t.head = p.head ∧ t.openHides.map Hide.number = p.openHides.map Hide.number := by
  obtain ⟨t, s, ht⟩ := p.exchanged.takeWaitingNotice_tracker
  dsimp only
  rw [Part.exchangeLists_eq, p.exchanged.passEnd_of_none_waiting h, Part.quietTests_openHides, Part.takeWaitingNotice_numbers,
    Part.quietTests_tracker, ht]
  simp only [Part.quietTests_holes, Part.takeWaitingNotice_holes, Part.quietTests_sched, Part.takeWaitingNotice_sched,
    Part.quietTests_head, Part.takeWaitingNotice_head]
  exact ⟨rfl, rfl, rfl, rfl, rfl, rfl⟩

theorem Part.exchangeLists_emptied (h : p.tracker.restartsWaiting ≠ 0) : p.exchangeLists.Emptied :=
  Part.passEnd_emptied _ h

end PassEnd

/-! ### What is left of a pass ends in stage 8 -/

/-- `t` comes of `p` by work that keeps a waiting notice waiting, and then stage 8. -/
def Part.EndsIn (p t : Part) : Prop :=
  ∃ q, p.Keeps q ∧ q.tracker.noticeWaiting = p.tracker.noticeWaiting ∧ t = q.exchangeLists

/-- Work before the rest of a pass. -/
theorem Part.EndsIn.before {p q t : Part} (h : q.EndsIn t) (hk : p.Keeps q)
    (hn : q.tracker.noticeWaiting = p.tracker.noticeWaiting) : p.EndsIn t := by
  obtain ⟨e, hke, hne, rfl⟩ := h
  exact ⟨e, hk.trans hke, hne.trans hn, rfl⟩

/-- The stage of a pass alone changes. -/
theorem Part.keeps_atStage {p q : Part} (h : p.Keeps q) (r : CondRow) (st : PassStage) : p.Keeps (q.atStage r st) :=
  h.trans (.of_eq rfl rfl rfl)

theorem Part.atStage_noticeWaiting (p : Part) (r : CondRow) (st : PassStage) :
    (p.atStage r st).tracker.noticeWaiting = p.tracker.noticeWaiting := rfl

section Stages

variable (r : CondRow) (p : Part)

theorem Part.keeps_siteStage : p.Keeps (p.siteStage r) := .of_eq (by simp) (by simp) (by simp)

theorem Part.keeps_checkHoles : p.Keeps p.checkHoles :=
  .of_eq p.checkHoles_setup p.checkHoles_intake p.checkHoles_dirty

theorem Part.keeps_accumulate : p.Keeps (p.accumulate r) := .of_eq (by simp) (by simp) (by simp)

theorem Part.keeps_truncated : p.Keeps p.truncated := .of_eq rfl rfl rfl

theorem finishExchange_endsIn : p.EndsIn (finishExchange p) := ⟨p, .refl p, rfl, rfl⟩

theorem finishSites_endsIn : p.EndsIn (finishSites r p) :=
  (finishExchange_endsIn _).before (Part.keeps_atStage (p.keeps_siteStage r) _ _) (p.siteStage_noticeWaiting r)

theorem finishClosing_endsIn (os : List Owner) : p.EndsIn (finishClosing r os p) := by
  induction os generalizing p with
  | nil => exact (finishSites_endsIn r _).before (Part.keeps_atStage (.refl p) _ _) rfl
  | cons o os ih => exact (ih _).before (Part.keeps_atStage (p.keeps_closeHide _ o) _ _) (p.closeHide_noticeWaiting _ o)

theorem checkedStage_eq : p.checkedStage r = p.checkHoles.atStage r (.closing p.checkHoles.toClose) := rfl

theorem finishChecking_endsIn : p.EndsIn (finishChecking r p) := by
  have hend := finishClosing_endsIn r (p.checkedStage r) p.checkHoles.toClose
  have hkept : p.Keeps (p.checkedStage r) := by
    rw [checkedStage_eq]; exact Part.keeps_atStage p.keeps_checkHoles _ _
  have hnotice : (p.checkedStage r).tracker.noticeWaiting = p.tracker.noticeWaiting := by
    rw [checkedStage_eq, Part.atStage_noticeWaiting, Part.checkHoles_noticeWaiting]
  exact hend.before hkept hnotice

theorem finishGaps_endsIn (gs : List Gap) : p.EndsIn (finishGaps r gs p) := by
  induction gs generalizing p with
  | nil => exact (finishChecking_endsIn r _).before (Part.keeps_atStage (.refl p) _ _) rfl
  | cons g gs ih => exact (ih _).before (Part.keeps_atStage (p.keeps_classifyGap g) _ _) (p.classifyGap_noticeWaiting g)

theorem finishAccumulation_endsIn : p.EndsIn (finishAccumulation r p) :=
  (finishGaps_endsIn r _ _).before (Part.keeps_atStage (p.keeps_accumulate r) _ _) (p.accumulate_noticeWaiting r)

theorem finishOwnership_endsIn (gs : List SegPlan) : p.EndsIn (finishOwnership r gs p) := by
  induction gs generalizing p with
  | nil => exact (finishAccumulation_endsIn r _).before (Part.keeps_atStage (.refl p) _ _) rfl
  | cons g gs ih => exact (ih _).before (Part.keeps_atStage (p.keeps_ownSegment g) _ _) (p.ownSegment_noticeWaiting g)

theorem finishSegmentation_endsIn : p.EndsIn (finishSegmentation r p) :=
  (finishOwnership_endsIn r _ _).before (Part.keeps_atStage (.refl p) _ _) rfl

theorem finishTruncating_endsIn (os : List Owner) : p.EndsIn (finishTruncating r os p) := by
  induction os generalizing p with
  | nil => exact (finishSegmentation_endsIn r _).before (Part.keeps_atStage p.keeps_truncated _ _) rfl
  | cons o os ih => exact (ih _).before (Part.keeps_atStage (p.keeps_closeHide _ o) _ _) (p.closeHide_noticeWaiting _ o)

end Stages

/-- Wherever a pass stands, what is left of it ends in stage 8. -/
theorem Part.finishPass_endsIn (p : Part) (h : p.tracker.pass.isSome = true) : p.EndsIn p.finishPass := by
  unfold Part.finishPass
  split
  · next hnone => simp [hnone] at h
  · next r st _ =>
    cases st with
    | truncating os => exact finishTruncating_endsIn r p os
    | segmentation => exact finishSegmentation_endsIn r p
    | ownership gs => exact finishOwnership_endsIn r p gs
    | accumulation => exact finishAccumulation_endsIn r p
    | gaps gs => exact finishGaps_endsIn r p gs
    | closingCheck => exact finishChecking_endsIn r p
    | closing os => exact finishClosing_endsIn r p os
    | sites => exact finishSites_endsIn r p
    | exchange => exact finishExchange_endsIn p

section Rest

variable {p : Part} (h : p.tracker.pass.isSome = true)
include h

theorem Part.finishPass_over : p.finishPass.PassOver := by
  obtain ⟨q, -, -, e⟩ := p.finishPass_endsIn h
  rw [e]; exact q.exchangeLists_over

theorem Part.finishPass_flagged (hn : p.tracker.noticeWaiting = true) :
    ∀ x ∈ p.finishPass.openHides, x.flags.maskedBeams = true := by
  obtain ⟨q, -, hq, e⟩ := p.finishPass_endsIn h
  rw [e]; exact q.exchangeLists_flagged (hq.trans hn)

theorem Part.finishPass_dirty : p.dirty ⊆ p.finishPass.dirty := by
  obtain ⟨q, hk, -, e⟩ := p.finishPass_endsIn h
  rw [e]; exact (hk.trans q.keeps_exchangeLists).dirty

theorem Part.finishPass_settled : p.finishPass.Settled := by
  obtain ⟨q, -, -, e⟩ := p.finishPass_endsIn h
  rw [e]; exact Part.passEnd_settled _

end Rest

/-! ### The take (R21, R22) -/

section Take

variable {p : Part} {r : CondRow} {rest : List CondRow} (h : p.intake.queue = r :: rest)
include h

/-- The part with the front row taken, before the scheduler's response. -/
theorem Part.takeRow_eq : p.takeRow =
    ((({ p with intake.queue := rest, tracker.rowIndex := p.tracker.rowIndex + 1 }.mark wRow).atStage r
      (p.firstStage r)).settleIncrement) := by
  unfold Part.takeRow
  rw [h]
  rfl

theorem Part.takeRow_tracker : p.takeRow.tracker =
    { p.tracker with rowIndex := p.tracker.rowIndex + 1, pass := some { row := r, stage := p.firstStage r } } := by
  rw [Part.takeRow_eq h, Part.settleIncrement_tracker]
  rfl

theorem Part.takeRow_queue : p.takeRow.intake.queue = rest := by
  rw [Part.takeRow_eq h, Part.settleIncrement_queue]
  rfl

theorem Part.wRow_mem_takeRow_dirty : wRow ∈ p.takeRow.dirty := by
  rw [Part.takeRow_eq h]
  exact (Part.keeps_settleIncrement _).dirty ((mem_insertRising _ _ _).2 (.inl rfl))

end Take

theorem Part.takeRow_nothing {p : Part} (h : p.intake.queue = []) : p.takeRow = p := by
  unfold Part.takeRow; rw [h]

/-! ### ROW_PASS -/

theorem Part.rowPass_none_pass {p : Part} (h : p.tracker.pass = none) (u : Option Nat) :
    p.rowPass u = match u with
      | none => p.takeRow.finishPass
      | some n => p.takeRow.passUnits n := by
  unfold Part.rowPass
  rw [h]
  rfl

theorem Part.rowPass_in_pass {p : Part} (h : p.tracker.pass.isSome = true) (u : Option Nat) :
    p.rowPass u = match u with
      | none => p.finishPass
      | some n => p.passUnits n := by
  unfold Part.rowPass
  rw [h]
  rfl

/-- One unit of work, by the stage at which the pass stands. -/
theorem Part.rowPass_unit {p : Part} (h : p.tracker.pass.isSome = true) : p.rowPass (some 1) = p.passUnit :=
  p.rowPass_in_pass h _

theorem Part.rowPass_idle {p : Part} (hp : p.tracker.pass = none) (hq : p.intake.queue = []) (u : Option Nat) :
    p.rowPass u = p := by
  have hunits : ∀ n, p.passUnits n = p := by
    intro n
    induction n with
    | zero => rfl
    | succ n ih =>
      have hunit : p.passUnit = p := by unfold Part.passUnit; rw [hp]
      rw [Part.passUnits, hunit, ih]
  rw [Part.rowPass_none_pass hp, Part.takeRow_nothing hq]
  cases u with
  | none => unfold Part.finishPass; rw [hp]
  | some n => exact hunits n

end Sys2Proof.Machine

/-! ## ROW_PASS -/

namespace Sys2Proof.Machine

theorem exec_rowPass_eq (s : State) (u : Option Nat) : exec (.rowPass u) s = .next { s with part := s.part.rowPass u } := rfl

/-- ROW_PASS for one unit at a stage. -/
theorem exec_rowPass_one {s : State} {r : CondRow} {st : PassStage} (h : s.part.tracker.pass = some { row := r, stage := st }) :
    exec (.rowPass (some 1)) s = .next { s with part := s.part.passUnit } := by
  rw [exec_rowPass_eq, Part.rowPass_unit (by rw [h]; rfl)]

/-- ROW_PASS that runs the whole of a pass in progress. -/
theorem wholePass (s : State) (h : s.part.tracker.pass.isSome = true) :
    ∃ t, exec (.rowPass none) s = .next t ∧ t.path = s.path ∧ t.part = s.part.finishPass :=
  ⟨{ s with part := s.part.finishPass }, by rw [exec_rowPass_eq, Part.rowPass_in_pass h], rfl, rfl⟩

/-- ROW_PASS that takes a row and runs its whole pass. -/
theorem wholeRow (s : State) (hp : s.part.tracker.pass = none) {r : CondRow} {rest : List CondRow}
    (hq : s.part.intake.queue = r :: rest) :
    ∃ t, exec (.rowPass none) s = .next t ∧ t.path = s.path ∧ t.part.belt = s.part.belt ∧
      t.part.tracker.rowIndex = s.part.tracker.rowIndex + 1 ∧ t.part.intake.queue = rest ∧ t.part.PassOver ∧
      wRow ∈ t.part.dirty := by
  have hin : s.part.takeRow.tracker.pass.isSome = true := by rw [Part.takeRow_tracker hq]; rfl
  refine ⟨{ s with part := s.part.takeRow.finishPass },
    by rw [exec_rowPass_eq, Part.rowPass_none_pass hp], rfl, by simp, ?_, ?_, Part.finishPass_over hin,
    Part.finishPass_dirty hin (Part.wRow_mem_takeRow_dirty hq)⟩
  · show s.part.takeRow.finishPass.tracker.rowIndex = _
    rw [Part.finishPass_rowIndex, Part.takeRow_tracker hq]
  · show s.part.takeRow.finishPass.intake.queue = _
    rw [Part.finishPass_queue, Part.takeRow_queue hq]

/-- Settles O19, by the end every stage leads to (`Part.finishPass_endsIn`) and the unit of work of each stage. -/
theorem rowPassTakesOneRow : Obligations.RowPassTakesOneRow := by
  intro s
  refine ⟨fun hp hq u => ?idle, fun r rest hp hq => ⟨?whole, ?take⟩, fun hp => ?inPass, fun r => ?units⟩
  case idle => rw [exec_rowPass_eq, Part.rowPass_idle hp hq]
  case whole =>
    obtain ⟨t, he, hpath, hbelt, hrow, hqueue, hover, hdirty⟩ := wholeRow s hp hq
    exact ⟨t, he, hpath, hbelt, hrow, hqueue, hover.pass, hover.cur, hover.curRuns, hover.restarts, hdirty⟩
  case take =>
    refine ⟨{ s with part := s.part.takeRow }, by rw [exec_rowPass_eq, Part.rowPass_none_pass hp]; rfl, rfl, ?_, ?_,
      s.part.firstStage r, ?_, fun htrunc => if_neg (by rw [htrunc]; simp)⟩
    · rw [Part.takeRow_tracker hq]
    · exact Part.takeRow_queue hq
    · rw [Part.takeRow_tracker hq]
  case inPass =>
    obtain ⟨t, he, hpath, hpart⟩ := wholePass s hp
    have hover := Part.finishPass_over hp
    refine ⟨t, he, hpath, ?_⟩
    rw [hpart]
    exact ⟨by simp, by simp, by simp, hover.pass, hover.cur, fun hn => ⟨hover.notice, Part.finishPass_flagged hp hn⟩⟩
  case units =>
    dsimp only
    refine ⟨fun h => ?_, fun g gs h => ?_, fun h => ?_, fun h => ?_, fun g gs h => ?_, fun h => ?_, fun h => ?_, rfl,
      fun h => ?_, fun h => ?_, fun h => ?exchange⟩
    case exchange =>
      have hover := s.part.exchangeLists_over
      refine ⟨{ s with part := s.part.exchangeLists }, by rw [exec_rowPass_one h]; unfold Part.passUnit; rw [h], rfl, hover.pass,
        hover.cur, hover.curRuns, hover.restarts, s.part.exchangeLists_of_none_waiting, fun hw => ?_⟩
      have hempty := s.part.exchangeLists_emptied hw
      exact ⟨hempty.hides, hempty.prev, hempty.prevRuns⟩
    all_goals
      rw [exec_rowPass_one h]
      unfold Part.passUnit
      rw [h]
      rfl

end Sys2Proof.Machine

/-! ## COMMIT -/

namespace Sys2Proof.Machine

theorem exec_commit_eq (tag : Half) (s : State) : exec (.commit tag) s = .next { s with part := s.part.commit tag } := rfl

theorem exec_restart_eq (tag : Half) (s : State) : exec (.restart tag) s = .next { s with part := s.part.restart tag } := rfl

/-! ### A pending snapshot (R180, R181) -/

section SnapshotApplied

variable (p : Part) {n : Snapshot} (hs : p.setup.snapshot = some n) (hq : p.setupQuiet = true)

theorem Part.wCommit_mem_setSnapshot (q : Part) {x : Option Snapshot} (h : q.setup.snapshot.isSome ≠ x.isSome) :
    wCommit ∈ (q.setSnapshot x).dirty := by
  unfold Part.setSnapshot
  dsimp only
  rw [if_neg h]
  exact (mem_insertRising _ _ _).2 (.inl rfl)

include hs hq

theorem Part.applySnapshotIfQuiet_setup_applied :
    p.applySnapshotIfQuiet.setup = { p.setup with guarded := n.fields, snapshot := none } := by
  rw [Part.applySnapshotIfQuiet_applies p hs hq, Part.setSnapshot_setup, Part.raise_setup, Part.applyGuarded_setup]

theorem Part.applySnapshotIfQuiet_dirty_applied : wCommit ∈ p.applySnapshotIfQuiet.dirty := by
  rw [Part.applySnapshotIfQuiet_applies p hs hq]
  exact Part.wCommit_mem_setSnapshot _ (by simp [hs])

/-- R181: every lot alive carries CAL_CHANGED. -/
theorem Part.applySnapshotIfQuiet_lots_applied : p.applySnapshotIfQuiet.lots.openLot.calChanged = true ∧
    ∀ l, p.applySnapshotIfQuiet.lots.closing = some l → l.calChanged = true := by
  obtain ⟨hopen, hclosing⟩ := p.applyGuarded_calChanged n.fields
  rw [Part.applySnapshotIfQuiet_applies p hs hq, Part.setSnapshot_lots]
  refine ⟨(Part.emit_calChanged _ _).trans hopen, fun l hl => ?_⟩
  have hmap := Part.emit_closing_calChanged (p.applyGuarded n.fields)
    (.event .commitApplied (p.applyGuarded n.fields).tracker.rowIndex (n.tag.setWidth 32))
  rw [show ((p.applyGuarded n.fields).emit _).lots.closing = some l from hl, Option.map_some] at hmap
  obtain ⟨c, hc, hcl⟩ := Option.map_eq_some_iff.1 hmap.symm
  exact hcl ▸ hclosing c hc

theorem Part.applySnapshotIfQuiet_outgoing_applied (h : p.recorder.outgoing.length < 8) :
    p.applySnapshotIfQuiet.recorder.outgoing =
      p.recorder.outgoing ++ [.event .commitApplied p.tracker.rowIndex (n.tag.setWidth 32)] := by
  rw [Part.applySnapshotIfQuiet_applies p hs hq, Part.setSnapshot_recorder, Part.raise_outgoing _ _ _ (by simpa using h)]
  simp

theorem Part.applySnapshotIfQuiet_intake_applied : p.applySnapshotIfQuiet.intake = (p.applyGuarded n.fields).intake := by
  rw [Part.applySnapshotIfQuiet_applies p hs hq, Part.setSnapshot_intake, Part.raise_intake]

end SnapshotApplied

/-! ### No snapshot is left over (R181) -/

theorem rowPass_settles (s : State) (h : s.part.tracker.pass.isSome = true ∨ s.part.intake.queue ≠ []) :
    ∃ t, exec (.rowPass none) s = .next t ∧ t.part.Settled := by
  rcases hp : s.part.tracker.pass with - | x
  · obtain ⟨r, rest, hq⟩ := List.exists_cons_of_ne_nil (h.resolve_left (by simp [hp]))
    have hin : s.part.takeRow.tracker.pass.isSome = true := by rw [Part.takeRow_tracker hq]; rfl
    exact ⟨{ s with part := s.part.takeRow.finishPass }, by rw [exec_rowPass_eq, Part.rowPass_none_pass hp],
      Part.finishPass_settled hin⟩
  · have hin : s.part.tracker.pass.isSome = true := by rw [hp]; rfl
    obtain ⟨t, he, -, hpart⟩ := wholePass s hin
    exact ⟨t, he, hpart ▸ Part.finishPass_settled hin⟩

/-! ### RESTART by whether a pass is in progress (R182) -/

section Restart

variable (p : Part) (tag : Half)

/-- The part once row intake has its part of RESTART (R19). -/
def Part.restartTaken : Part := (p.answer tag 7 .done).intakeRestart

@[simp] theorem Part.restartTaken_tracker : (p.restartTaken tag).tracker = p.tracker := by
  unfold Part.restartTaken Part.intakeRestart Part.countDropped; dsimp only; split <;> simp

theorem Part.restart_no_pass (h : p.tracker.pass = none) : p.restart tag = (p.restartTaken tag).takeRestart := by
  unfold Part.restart
  exact if_neg (by rw [← Part.restartTaken, Part.restartTaken_tracker, h]; simp)

theorem Part.restart_in_pass (h : p.tracker.pass.isSome = true) :
    p.restart tag = { p.restartTaken tag with tracker.restartsWaiting := p.tracker.restartsWaiting + 1 } := by
  have hin : (p.restartTaken tag).tracker.pass.isSome = true := by rw [Part.restartTaken_tracker, h]
  have hcount := congrArg Tracker.restartsWaiting (p.restartTaken_tracker tag)
  rw [← hcount]
  exact if_pos hin

end Restart

theorem restart_settles (tag : Half) (s : State) (h : s.part.tracker.pass = none) :
    ∃ t, exec (.restart tag) s = .next t ∧ t.part.Settled :=
  ⟨{ s with part := (s.part.restartTaken tag).takeRestart }, by rw [exec_restart_eq, Part.restart_no_pass _ _ h],
    Part.takeRestart_settled _⟩

/-! ### A COMMIT that passes validation (R179 to R181) -/

section Valid

variable (p : Part) (tag : Half)

/-- What the guarded fields come to, and the part they leave, before the answer. -/
def Part.committed : ResultCode × Part := p.withUnguarded.commitGuarded tag (Guarded.ofStaged p.setup.staged)

theorem Part.committed_setup : ∃ g n, (p.committed tag).2.setup =
    { p.setup with unguarded := Unguarded.ofStaged p.setup.staged, guarded := g, snapshot := n } := by
  obtain ⟨g, n, h⟩ := p.withUnguarded.commitGuarded_setup tag (Guarded.ofStaged p.setup.staged)
  exact ⟨g, n, by rw [Part.committed, h, Part.withUnguarded_setup]⟩

theorem Part.committed_tracker : (p.committed tag).2.tracker = p.tracker := by
  rw [Part.committed, Part.commitGuarded_tracker, Part.withUnguarded_tracker]

theorem Part.withUnguarded_setupQuiet : p.withUnguarded.setupQuiet = p.setupQuiet := p.applyUnguarded_setupQuiet _

variable {g : Guarded} (hg : Guarded.ofStaged p.setup.staged = g)
include hg

theorem Part.committed_same (h : g = p.setup.guarded) : p.committed tag = (.done, p.withUnguarded.setSnapshot none) := by
  rw [Part.committed, hg, Part.commitGuarded_same _ _ _ (by rw [Part.withUnguarded_setup]; exact h)]

theorem Part.committed_quiet (h : g ≠ p.setup.guarded) (hq : p.setupQuiet = true) :
    p.committed tag = (.done, (p.withUnguarded.applyGuarded g).setSnapshot none) := by
  rw [Part.committed, hg, Part.commitGuarded_quiet _ _ _ (by rw [Part.withUnguarded_setup]; exact h)
    (p.withUnguarded_setupQuiet.trans hq)]

theorem Part.committed_busy (h : g ≠ p.setup.guarded) (hq : p.setupQuiet = false) :
    p.committed tag = (.deferred, p.withUnguarded.setSnapshot (some { fields := g, tag := tag })) := by
  rw [Part.committed, hg, Part.commitGuarded_busy _ _ _ (by rw [Part.withUnguarded_setup]; exact h)
    (p.withUnguarded_setupQuiet.trans hq)]

end Valid

/-- The guarded fields of a COMMIT applied at once (R16, R20, R181): what they change in row intake and the lots. -/
theorem Part.committed_quiet_effects (p : Part) (g : Guarded) :
    let q := (p.withUnguarded.applyGuarded g).setSnapshot none
    let old := p.setup.guarded
    q.setup.snapshot = none ∧ q.setup.guarded = g ∧ q.lots.openLot.calChanged = true ∧
      (∀ l, q.lots.closing = some l → l.calChanged = true) ∧
      q.intake.autoMask = (if g.mask = old.mask then p.intake.autoMask else 0) ∧
      (g.mask ≠ old.mask → ∀ x ∈ q.intake.stuck, x = 0) ∧
      (g.rowRingBase ≠ old.rowRingBase ∨ g.slotCount ≠ old.slotCount ∨ g.beams ≠ old.beams →
        q.intake.buffers = [] ∧ q.intake.queue = [] ∧ q.intake.syncPending = true) := by
  obtain ⟨hopen, hclosing⟩ := p.withUnguarded.applyGuarded_calChanged g
  have hold : p.withUnguarded.setup.guarded = p.setup.guarded := by rw [Part.withUnguarded_setup]
  have hauto := p.withUnguarded.applyGuarded_autoMask g
  have hstuck := p.withUnguarded.applyGuarded_stuck_of_mask g
  have hgeometry := p.withUnguarded.applyGuarded_geometry g
  rw [hold] at hauto hstuck hgeometry
  rw [Part.withUnguarded_intake] at hauto
  dsimp only
  rw [Part.setSnapshot_setup, Part.setSnapshot_lots, Part.setSnapshot_intake, Part.applyGuarded_setup]
  refine ⟨rfl, rfl, hopen, hclosing, hauto, fun hm x hx => ?_, fun hgeo => ?_⟩
  · rw [hstuck hm] at hx
    exact List.eq_of_mem_replicate hx
  · obtain ⟨hbuffers, hqueue, hsync, -⟩ := hgeometry hgeo
    exact ⟨hbuffers, hqueue, hsync⟩

theorem exec_commit_range (tag : Half) (s : State) (k : Nat) (h : firstOutOfRange s.part.setup.staged = some k) :
    exec (.commit tag) s = .next { s with
      part := s.part.setResult { tag := tag, code := 1, result := .range, offset := BitVec.ofNat 8 k } } := by
  rw [exec_commit_eq, Part.commit, h]

theorem exec_commit_valid (tag : Half) (s : State) (h : firstOutOfRange s.part.setup.staged = none) :
    exec (.commit tag) s = .next { s with part := (s.part.committed tag).2.answer tag 1 (s.part.committed tag).1 } := by
  rw [exec_commit_eq, Part.commit_valid _ _ h]; rfl

/-- Settles O56: the checks of the staged copy one by one, the pending snapshot, and the three outcomes of a validated COMMIT. -/
theorem commit : Obligations.Commit := by
  refine ⟨fun ws => ⟨firstOutOfRange_eq_none_iff ws, firstOutOfRange_eq_some_iff ws, Guarded.ofStaged_fields ws, ?unguarded⟩,
    fun p => ⟨p.setupQuiet_iff, p.applySnapshotIfQuiet_waits, fun n hs hq => ?applied, p.finishJob_settled⟩,
    fun tag s => ⟨rowPass_settles s, restart_settles tag s⟩,
    fun tag s => ⟨exec_commit_range tag s, fun hvalid => ?valid⟩⟩
  case unguarded =>
    have hwindows : Window.ofStaged ws = _ := funext (Window.ofStaged_fields ws)
    rw [Unguarded.ofStaged, hwindows]
    rfl
  case applied =>
    obtain ⟨hopen, hclosing⟩ := p.applySnapshotIfQuiet_lots_applied hs hq
    have hintake := p.applySnapshotIfQuiet_intake_applied hs hq
    refine ⟨p.applySnapshotIfQuiet_setup_applied hs hq, p.applySnapshotIfQuiet_dirty_applied hs hq, hopen, hclosing,
      p.applySnapshotIfQuiet_outgoing_applied hs hq, ?_, fun hm x hx => ?_, fun hgeo => ?_⟩
    · rw [hintake, Part.applyGuarded_autoMask]
    · rw [hintake, p.applyGuarded_stuck_of_mask _ hm] at hx
      exact List.eq_of_mem_replicate hx
    · obtain ⟨hbuffers, hqueue, hsync, hstuck⟩ := p.applyGuarded_geometry _ hgeo
      rw [hintake, hstuck]
      exact ⟨hbuffers, hqueue, hsync, fun x hx => List.eq_of_mem_replicate hx⟩
  case valid =>
    obtain ⟨g', n, hsetup⟩ := s.part.committed_setup tag
    refine ⟨_, (s.part.committed tag).1, exec_commit_valid tag s hvalid, rfl, ?_, ?_, ?_, ?_, fun hg => ?_, fun hg hq => ?_,
      fun hg hq => ?_⟩
    · rw [Part.answer_setup, hsetup]
    · rw [Part.answer_setup, hsetup]
    · rw [Part.answer_setup]
    · rw [Part.answer_tracker, Part.committed_tracker]
    · rw [s.part.committed_same tag rfl hg, Part.answer_setup, Part.setSnapshot_setup, Part.withUnguarded_setup]
      exact ⟨rfl, rfl, rfl⟩
    · obtain ⟨hsnap, hguarded, heffects⟩ := s.part.committed_quiet_effects (Guarded.ofStaged s.part.setup.staged)
      rw [s.part.committed_quiet tag rfl hg hq, Part.answer_setup, Part.answer_lots, Part.answer_intake]
      exact ⟨rfl, hsnap, hguarded, heffects⟩
    · rw [s.part.committed_busy tag rfl hg hq, Part.answer_setup, Part.setSnapshot_setup, Part.withUnguarded_setup]
      exact ⟨rfl, rfl, rfl⟩

end Sys2Proof.Machine

/-! ## RESTART: the scheduler's part, and the records it produces -/

namespace Sys2Proof.Machine

/-! ### What joins the outgoing queue while no lot is CLOSING

With no CLOSING lot no LOT record is produced, so nothing that waits is displaced (R187). -/

/-- No lot is CLOSING still, and the records that waited wait in front of the new ones. -/
structure Part.Appends (p q : Part) : Prop where
  closing : q.lots.closing = none
  outgoing : p.recorder.outgoing <+: q.recorder.outgoing

section Appends

variable {p q t : Part}

theorem Part.Appends.trans (h : p.Appends q) (h' : q.Appends t) : p.Appends t := ⟨h'.closing, h.outgoing.trans h'.outgoing⟩

/-- A change of neither the CLOSING lot nor the outgoing queue. -/
theorem Part.Appends.of_eq (h : p.lots.closing = none) (hl : q.lots.closing = p.lots.closing)
    (hr : q.recorder = p.recorder) : p.Appends q := ⟨hl.trans h, by rw [hr]⟩

theorem Part.Appends.foldl {β : Type} {g : Part → β → Part} (hg : ∀ (p : Part) b, p.lots.closing = none → p.Appends (g p b))
    (l : List β) (p : Part) (h : p.lots.closing = none) : p.Appends (l.foldl g p) := by
  induction l generalizing p with
  | nil => exact .of_eq h rfl rfl
  | cons b l ih => exact (hg p b h).trans (ih _ (hg p b h).closing)

variable (h : p.lots.closing = none)
include h

theorem Part.emit_appends (r : Record) (hr : r.isLot = false) : p.Appends (p.emit r) := by
  refine ⟨(p.emit_closing_eq_none r).2 h, ?_⟩
  by_cases hlt : p.recorder.outgoing.length < 8
  · rw [Part.emit_of_lt p r hlt]; exact List.prefix_append _ _
  · rw [Part.emit, if_neg hlt, hr, if_neg (by simp), Part.dropRecord_recorder]

theorem Part.raise_appends (k : EventKind) (a : Word) : p.Appends (p.raise k a) := p.emit_appends h _ rfl

theorem Part.modifyLot_closing_none (id : Half) (f : Lot → Lot) : (p.modifyLot id f).lots.closing = none := by
  unfold Part.modifyLot
  split
  · exact h
  · rw [h]; rfl

theorem Part.modifyLot_appends (id : Half) (f : Lot → Lot) : p.Appends (p.modifyLot id f) :=
  .of_eq h ((p.modifyLot_closing_none h id f).trans h.symm) (by simp)

theorem Part.release_appends (i : HideInfo) (o : StampOutcome) (x : Option Word) : p.Appends (p.release i o x) :=
  (p.modifyLot_appends h _ _).trans (Part.emit_appends (p.modifyLot_closing_none h _ _) _ rfl)

theorem Part.closingTest_of_none : p.closingTest = p := by
  unfold Part.closingTest
  exact if_pos (by rw [h]; simp)

theorem Part.closingTestFor_of_none (id : Half) : p.closingTestFor id = p := by
  unfold Part.closingTestFor
  rw [h]

theorem Part.applySnapshotIfQuiet_appends : p.Appends p.applySnapshotIfQuiet := by
  rcases p.applySnapshotIfQuiet_cases with ⟨-, e⟩ | ⟨n, -, -, e⟩
  · rw [e]; exact .of_eq h rfl rfl
  · have hclosing : (p.applyGuarded n.fields).lots.closing = p.lots.closing := by
      rw [Part.applyGuarded_lots, h]; simp [Part.flagCalChanged, h]
    have happlied : p.Appends (p.applyGuarded n.fields) := .of_eq h hclosing (by simp)
    have hraised := happlied.trans (Part.raise_appends happlied.closing .commitApplied (n.tag.setWidth 32))
    rw [e]
    exact hraised.trans (.of_eq hraised.closing (by simp) (by simp))

theorem Part.quietTests_appends : p.Appends p.quietTests := by
  have happlied := p.applySnapshotIfQuiet_appends h
  rw [Part.quietTests, Part.closingTest_of_none happlied.closing]
  exact happlied

theorem Part.finishJob_eq_of_none (j : Job) (o : StampOutcome) :
    p.finishJob j o = (p.release j.info o (some j.strikeRow)).applySnapshotIfQuiet := by
  have happlied := Part.applySnapshotIfQuiet_appends (p.release_appends h j.info o (some j.strikeRow)).closing
  rw [Part.finishJob, Part.closingTestFor_of_none happlied.closing]

theorem Part.finishJob_appends (j : Job) (o : StampOutcome) : p.Appends (p.finishJob j o) := by
  rw [Part.finishJob_eq_of_none h]
  have hreleased := p.release_appends h j.info o (some j.strikeRow)
  exact hreleased.trans (Part.applySnapshotIfQuiet_appends hreleased.closing)

theorem Part.leaveUnstamped_eq_of_none (i : HideInfo) (r : UnstampedReason) :
    p.leaveUnstamped i r = p.release i (.unstamped r) none := by
  rw [Part.leaveUnstamped, Part.closingTestFor_of_none (p.release_appends h _ _ _).closing]

theorem Part.markRecord_appends (w : Nat) (d row : Word) (b : Option Half) (a : Bool) (l : Half) :
    p.Appends (p.markRecord w d row b a l) :=
  (p.modifyLot_appends h _ _).trans (Part.emit_appends (p.modifyLot_closing_none h _ _) _ rfl)

theorem Part.resolveMark_appends (m : Mark) : p.Appends (p.resolveMark m) := by
  unfold Part.resolveMark
  dsimp only
  split <;> exact p.markRecord_appends h _ _ _ _ _ _

theorem Part.reexamine_appends (ms : List Mark) : p.Appends (p.reexamine ms) := by
  induction ms generalizing p with
  | nil => exact .of_eq h rfl rfl
  | cons m ms ih =>
    unfold Part.reexamine
    split
    · refine Part.Appends.trans (q := { p with lots.markQueue := p.lots.markQueue ++ [m] }) (.of_eq h rfl rfl) ?_
      exact ih h
    · have hresolved := p.resolveMark_appends h m
      exact hresolved.trans (ih hresolved.closing)

theorem Part.reexamineMarks_appends : p.Appends p.reexamineMarks := by
  refine Part.Appends.trans (q := { p with lots.markQueue := [] }) (.of_eq h rfl rfl) ?_
  exact Part.reexamine_appends (p := { p with lots.markQueue := [] }) h p.lots.markQueue

omit h in
theorem Part.noteClosed_closing (o : Owner) (x : Hide) : (p.noteClosed o x).lots.closing = p.lots.closing := by
  cases o <;> rfl

/-- A close by RESTART, as steps: the record, then the place, the lists and the counter (R42, R83). -/
theorem Part.closeHide_restart_eq {o : Owner} {x : Hide} (hx : (p.breachOwned o).hideOf o = some x) :
    p.closeHide .restart o =
      (((((p.breachOwned o).release ((p.breachOwned o).infoOf o.source (CloseCause.restart.marked x))
        (.unstamped .truncated) none).setHide o none).noteClosed o (CloseCause.restart.marked x)).reexamineMarks).countClosed := by
  have hleft : (p.breachOwned o).takeHide o.source .restart (CloseCause.restart.marked x) = _ :=
    Part.leaveUnstamped_eq_of_none (by simpa using h) _ _
  rw [Part.closeHide_of_some _ hx, hleft]

omit h in
/-- What a close by RESTART does after its record. -/
theorem Part.closeHide_restart_rest (q : Part) (o : Owner) (x : Hide) (hq : q.lots.closing = none) :
    q.Appends (((q.setHide o none).noteClosed o x).reexamineMarks).countClosed := by
  have hnoted : q.Appends ((q.setHide o none).noteClosed o x) :=
    .of_eq hq ((Part.noteClosed_closing o x).trans (by simp)) (by simp)
  have hmarked := hnoted.trans (Part.reexamineMarks_appends hnoted.closing)
  exact hmarked.trans (.of_eq hmarked.closing rfl rfl)

theorem Part.closeHide_restart_appends (o : Owner) : p.Appends (p.closeHide .restart o) := by
  have hbreached : p.Appends (p.breachOwned o) := .of_eq h (by simp) (by simp)
  rcases hx : (p.breachOwned o).hideOf o with - | x
  · rw [Part.closeHide_of_none _ hx]; exact hbreached
  · rw [Part.closeHide_restart_eq h hx]
    have hreleased := hbreached.trans (Part.release_appends hbreached.closing
      ((p.breachOwned o).infoOf o.source (CloseCause.restart.marked x)) (.unstamped .truncated) none)
    exact hreleased.trans (Part.closeHide_restart_rest _ o _ hreleased.closing)

theorem Part.closeAll_restart_appends (os : List Owner) : p.Appends (p.closeAll .restart os) :=
  .foldl (fun _ o hq => Part.closeHide_restart_appends hq o) os p h

end Appends

/-! ### The scheduler's part of RESTART (R129) -/

/-- The record of a job that RESTART takes. -/
def Job.restartRecord (j : Job) : Record := .hide j.info (.missed .restart) (some j.strikeRow)

/-- The current job, where RESTART takes it: a STRIKING one stays. -/
def Part.currentGone (p : Part) : List Job := p.sched.current.toList.filter (fun j => decide (j.state ≠ .striking))

section SchedulerRestart

variable (p : Part)

theorem Part.withdraw_sched_of_none (h : p.sched.current = none) : p.withdraw.sched = p.sched := by
  unfold Part.withdraw Part.enterReady Part.enterParking
  split
  · split
    · have hcurrent : (p.dropInHand.dropInHand.enterHead .parking).sched.current = none := by simpa using h
      dsimp only
      rw [hcurrent]
      simp
    · simp
  · rfl

/-- The two things RESTART can do with the current job (R129): none or a STRIKING one is left alone; another leaves as
MISSED(RESTART), and a withdrawal may follow. -/
theorem Part.restartCurrent_cases :
    (p.restartCurrent = p ∧ p.currentGone = [] ∧ ∀ j, p.sched.current = some j → j.state = .striking) ∨
      ∃ j, p.sched.current = some j ∧ j.state ≠ .striking ∧ p.currentGone = [j] ∧
        (p.restartCurrent = { p with sched.current := none }.finishJob j (.missed .restart) ∨
          p.restartCurrent = ({ p with sched.current := none }.finishJob j (.missed .restart)).withdraw) := by
  unfold Part.restartCurrent Part.currentGone Part.finishCurrent
  rcases hc : p.sched.current with - | j
  · exact .inl ⟨rfl, rfl, by simp⟩
  · cases hst : j.state with
    | striking => exact .inl ⟨by simp only [hst], by simp [hst], fun i hi => by rw [← Option.some.inj hi]; exact hst⟩
    | queued => exact .inr ⟨j, rfl, by simp [hst], by simp [hst], .inl (by simp only [hst])⟩
    | preparing => exact .inr ⟨j, rfl, by simp [hst], by simp [hst], .inr (by simp only [hst])⟩
    | armed => exact .inr ⟨j, rfl, by simp [hst], by simp [hst], .inr (by simp only [hst])⟩

theorem Part.missWaiting_sched (r : MissReason) (js : List Job) (h : p.sched.waiting = js) :
    (p.missWaiting r js).sched = { p.sched with waiting := [] } := by
  induction js generalizing p with
  | nil => rw [Part.missWaiting, ← h]
  | cons j js ih =>
    rw [Part.missWaiting, ih _ (by simp), Part.finishJob_sched]

/-- What is left of the queue: nothing waits, no height stands, and the current job stays if it is STRIKING. -/
theorem Part.schedulerRestart_sched :
    let q := p.schedulerRestart
    (∀ h ∈ q.sched.heights, h = 0) ∧ q.sched.waiting = [] ∧
      (∀ j, q.sched.current = some j → j.state = .striking ∧ p.sched.current = some j) ∧
      (∀ j, p.sched.current = some j → j.state = .striking → q.sched.current = some j) := by
  have hq : p.schedulerRestart.sched =
      { p.restartCurrent.sched with waiting := [], heights := p.restartCurrent.sched.heights.map (fun _ => 0) } := by
    unfold Part.schedulerRestart Part.clearHeights
    dsimp only
    rw [Part.missWaiting_sched _ _ _ rfl]
  dsimp only
  rw [hq]
  refine ⟨fun h hh => ?_, rfl, ?_⟩
  · obtain ⟨_, -, rfl⟩ := List.mem_map.1 hh
    rfl
  · rcases p.restartCurrent_cases with ⟨e, -, hstriking⟩ | ⟨i, hi, hstate, -, e⟩
    · rw [e]
      exact ⟨fun j hj => ⟨hstriking j hj, hj⟩, fun j hj _ => hj⟩
    · have hnone : p.restartCurrent.sched.current = none := by
        rcases e with e | e
        · rw [e, Part.finishJob_sched]
        · rw [e, Part.withdraw_sched_of_none _ (by rw [Part.finishJob_sched]), Part.finishJob_sched]
      refine ⟨fun j hj => ?_, fun j hj hs => ?_⟩
      · rw [hnone] at hj; exact absurd hj (by simp)
      · rw [hi] at hj; exact absurd (Option.some.inj hj ▸ hs) hstate

theorem Part.restartCurrent_waiting : p.restartCurrent.sched.waiting = p.sched.waiting := by
  rcases p.restartCurrent_cases with ⟨e, -, -⟩ | ⟨j, -, -, -, e | e⟩
  · rw [e]
  · rw [e, Part.finishJob_sched]
  · rw [e, Part.withdraw_sched_of_none _ (by rw [Part.finishJob_sched]), Part.finishJob_sched]

end SchedulerRestart

end Sys2Proof.Machine

/-! ## RESTART: every record it owes, and the statement -/

namespace Sys2Proof.Machine

/-! ### The missed jobs' records, in queue order (R129, R125) -/

section Missed

variable {p : Part}

theorem Part.release_outgoing (i : HideInfo) (o : StampOutcome) (x : Option Word) (h : p.recorder.outgoing.length < 8) :
    (p.release i o x).recorder.outgoing = p.recorder.outgoing ++ [.hide i o x] := by
  rw [Part.release, Part.emit_of_lt _ _ (by simpa using h)]
  simp

variable (hc : p.lots.closing = none)
include hc

/-- A job leaves with its record; while others stay the part is not setup-quiet, and the record is the last to join. -/
theorem Part.finishJob_outgoing (j : Job) (h : p.recorder.outgoing.length < 8) :
    let q := p.finishJob j (.missed .restart)
    (p.recorder.outgoing ++ [j.restartRecord]) <+: q.recorder.outgoing ∧
      (p.jobs ≠ [] → q.recorder.outgoing = p.recorder.outgoing ++ [j.restartRecord]) := by
  have hreleased := p.release_appends hc j.info (.missed .restart) (some j.strikeRow)
  have hrecord := Part.release_outgoing j.info (.missed .restart) (some j.strikeRow) h
  dsimp only
  rw [Part.finishJob_eq_of_none hc]
  refine ⟨?_, fun hjobs => ?_⟩
  · rw [Job.restartRecord, ← hrecord]
    exact (Part.applySnapshotIfQuiet_appends hreleased.closing).outgoing
  · have hbusy : (p.release j.info (.missed .restart) (some j.strikeRow)).setupQuiet = false := by
      have : (p.release j.info (.missed .restart) (some j.strikeRow)).jobs = p.jobs := by simp [Part.jobs]
      simp [Part.setupQuiet, this, hjobs]
    rw [Part.applySnapshotIfQuiet_waits _ (.inr hbusy)]
    exact hrecord

/-- The waiting jobs' records join behind the records `l`, where nothing else has joined as long as a job is left. -/
theorem Part.missWaiting_outgoing (js : List Job) (l : List Record) (hfirst : l <+: p.recorder.outgoing)
    (hexact : js ≠ [] → p.recorder.outgoing = l) (h : l.length + js.length ≤ 8) :
    (p.missWaiting .restart js).lots.closing = none ∧
      (l ++ js.map Job.restartRecord) <+: (p.missWaiting .restart js).recorder.outgoing := by
  induction js generalizing p l with
  | nil => exact ⟨hc, by rw [List.map_nil, List.append_nil]; exact hfirst⟩
  | cons j js ih =>
    have hl := hexact (List.cons_ne_nil _ _)
    rw [List.length_cons] at h
    have hlt : p.recorder.outgoing.length < 8 := by rw [hl]; omega
    obtain ⟨hfirst', hexact'⟩ := Part.finishJob_outgoing (p := { p with sched.waiting := js }) hc j hlt
    have hclosing := (Part.finishJob_appends (p := { p with sched.waiting := js }) hc j (.missed .restart)).closing
    have hrest := ih hclosing (l ++ [j.restartRecord]) (hl ▸ hfirst')
      (fun hjs => hl ▸ hexact' (by simp [Part.jobs, hjs])) (by rw [List.length_append, List.length_singleton]; omega)
    rw [List.append_assoc] at hrest
    exact hrest

/-- The current job's part: its record joins, and is the last to join where jobs wait. -/
theorem Part.restartCurrent_outgoing (h : p.recorder.outgoing.length + p.currentGone.length ≤ 8) :
    p.restartCurrent.lots.closing = none ∧
      (p.recorder.outgoing ++ p.currentGone.map Job.restartRecord) <+: p.restartCurrent.recorder.outgoing ∧
      (p.sched.waiting ≠ [] →
        p.restartCurrent.recorder.outgoing = p.recorder.outgoing ++ p.currentGone.map Job.restartRecord) := by
  rcases p.restartCurrent_cases with ⟨e, hgone, -⟩ | ⟨j, -, -, hgone, e⟩
  · rw [e, hgone, List.map_nil, List.append_nil]
    exact ⟨hc, List.prefix_rfl, fun _ => rfl⟩
  · rw [hgone, List.length_singleton] at h
    have hlt : p.recorder.outgoing.length < 8 := by omega
    have hkept : p.restartCurrent.recorder = ({ p with sched.current := none }.finishJob j (.missed .restart)).recorder ∧
        p.restartCurrent.lots = ({ p with sched.current := none }.finishJob j (.missed .restart)).lots := by
      rcases e with e | e <;> rw [e] <;> simp
    obtain ⟨hrecorder, hlots⟩ := hkept
    obtain ⟨hfirst, hexact⟩ := Part.finishJob_outgoing (p := { p with sched.current := none }) hc j hlt
    have hclosing := (Part.finishJob_appends (p := { p with sched.current := none }) hc j (.missed .restart)).closing
    rw [hgone, hrecorder, hlots]
    exact ⟨hclosing, hfirst, fun hw => hexact (by simp [Part.jobs, hw])⟩

/-- The scheduler's part of RESTART: the current job's record first, then those of the waiting jobs. -/
theorem Part.schedulerRestart_outgoing
    (h : p.recorder.outgoing.length + (p.currentGone ++ p.sched.waiting).length ≤ 8) :
    p.schedulerRestart.lots.closing = none ∧
      (p.recorder.outgoing ++ (p.currentGone ++ p.sched.waiting).map Job.restartRecord) <+:
        p.schedulerRestart.recorder.outgoing := by
  rw [List.length_append] at h
  obtain ⟨hclosing, hfirst, hexact⟩ := Part.restartCurrent_outgoing hc (by omega)
  have hwaiting := Part.missWaiting_outgoing hclosing p.sched.waiting _ hfirst hexact
    (by rw [List.length_append, List.length_map]; omega)
  rw [List.append_assoc, ← List.map_append, ← Part.restartCurrent_waiting] at hwaiting
  rw [← Part.restartCurrent_waiting]
  exact hwaiting

/-- RESTART whole: nothing that waited is displaced, and the missed jobs' records come first. -/
theorem Part.takeRestart_outgoing
    (h : p.recorder.outgoing.length + (p.currentGone ++ p.sched.waiting).length ≤ 8) :
    (p.recorder.outgoing ++ (p.currentGone ++ p.sched.waiting).map Job.restartRecord) <+: p.takeRestart.recorder.outgoing := by
  obtain ⟨hclosing, hmissed⟩ := Part.schedulerRestart_outgoing hc h
  have hclosed := Part.closeAll_restart_appends hclosing (p.schedulerRestart.closeOrder p.schedulerRestart.openOwners)
  have hquiet := Part.quietTests_appends (p := (p.schedulerRestart.closeAll .restart
    (p.schedulerRestart.closeOrder p.schedulerRestart.openOwners)).emptyLists) hclosed.closing
  exact (hmissed.trans hclosed.outgoing).trans hquiet.outgoing

end Missed

/-! ### The closed hides' records (R46, R83) -/

/-- Nothing but RESTART's own records can join the outgoing queue: no lot closes, no snapshot is applied, no mark waits. -/
structure Part.Calm (p : Part) : Prop where
  closing : p.lots.closing = none
  snapshot : p.setup.snapshot = none
  marks : p.lots.markQueue = []

section Calm

variable {p : Part} (h : p.Calm)
include h

theorem Part.Calm.of_eq {q : Part} (hl : q.lots.closing = p.lots.closing) (hm : q.lots.markQueue = p.lots.markQueue)
    (hs : q.setup = p.setup) : q.Calm := ⟨hl.trans h.closing, by rw [hs]; exact h.snapshot, hm.trans h.marks⟩

theorem Part.Calm.release (i : HideInfo) (o : StampOutcome) (x : Option Word) : (p.release i o x).Calm :=
  h.of_eq ((p.release_appends h.closing i o x).closing.trans h.closing.symm) (by simp [Part.release]) (by simp)

omit h in
/-- One record more at most. -/
theorem Part.release_length_le (i : HideInfo) (o : StampOutcome) (x : Option Word) :
    (p.release i o x).recorder.outgoing.length ≤ p.recorder.outgoing.length + 1 := by
  by_cases hlt : p.recorder.outgoing.length < 8
  · rw [Part.release_outgoing i o x hlt]; simp
  · have hfull : (p.release i o x).recorder.outgoing = p.recorder.outgoing := by
      rw [Part.release, Part.emit, if_neg (by simpa using hlt), if_neg (by simp [Record.isLot]), Part.dropRecord_recorder]
      simp
    rw [hfull]; omega

/-- Under `Calm` a job's outcome is its record and nothing else. -/
theorem Part.Calm.finishJob_eq (j : Job) (o : StampOutcome) : p.finishJob j o = p.release j.info o (some j.strikeRow) := by
  rw [Part.finishJob_eq_of_none h.closing, Part.applySnapshotIfQuiet_waits _ (.inl (h.release _ _ _).snapshot)]

theorem Part.Calm.missWaiting (js : List Job) : (p.missWaiting .restart js).Calm ∧
    (p.missWaiting .restart js).recorder.outgoing.length ≤ p.recorder.outgoing.length + js.length := by
  induction js generalizing p with
  | nil => exact ⟨h, Nat.le_refl _⟩
  | cons j js ih =>
    have hq : Part.Calm { p with sched.waiting := js } := h.of_eq rfl rfl rfl
    have hlength : _ ≤ p.recorder.outgoing.length + 1 :=
      Part.release_length_le (p := { p with sched.waiting := js }) j.info (.missed .restart) (some j.strikeRow)
    rw [Part.missWaiting, hq.finishJob_eq]
    obtain ⟨hcalm, hrest⟩ := ih (hq.release j.info (.missed .restart) (some j.strikeRow))
    exact ⟨hcalm, by rw [List.length_cons]; omega⟩

theorem Part.Calm.restartCurrent : p.restartCurrent.Calm ∧
    p.restartCurrent.recorder.outgoing.length ≤ p.recorder.outgoing.length + p.currentGone.length := by
  rcases p.restartCurrent_cases with ⟨e, hgone, -⟩ | ⟨j, -, -, hgone, e⟩
  · rw [e]; exact ⟨h, Nat.le_add_right _ _⟩
  · have hq : Part.Calm { p with sched.current := none } := h.of_eq rfl rfl rfl
    have hlength : _ ≤ p.recorder.outgoing.length + 1 :=
      Part.release_length_le (p := { p with sched.current := none }) j.info (.missed .restart) (some j.strikeRow)
    have hcalm := hq.release j.info (.missed .restart) (some j.strikeRow)
    rw [hq.finishJob_eq] at e
    rw [hgone]
    rcases e with e | e
    · rw [e]; exact ⟨hcalm, hlength⟩
    · rw [e]; exact ⟨hcalm.of_eq (by simp) (by simp) (by simp), by simpa using hlength⟩

theorem Part.Calm.schedulerRestart : p.schedulerRestart.Calm ∧
    p.schedulerRestart.recorder.outgoing.length ≤
      p.recorder.outgoing.length + (p.currentGone ++ p.sched.waiting).length := by
  obtain ⟨hcurrent, hfirst⟩ := h.restartCurrent
  obtain ⟨hcalm, hrest⟩ := hcurrent.missWaiting p.restartCurrent.sched.waiting
  refine ⟨hcalm.of_eq rfl rfl rfl, ?_⟩
  rw [Part.restartCurrent_waiting] at hrest
  show (p.restartCurrent.missWaiting .restart p.restartCurrent.sched.waiting).recorder.outgoing.length ≤ _
  rw [Part.restartCurrent_waiting, List.length_append]
  omega

theorem Part.Calm.reexamineMarks_eq : p.reexamineMarks = p := by
  unfold Part.reexamineMarks
  rw [h.marks, Part.reexamine, ← h.marks]

omit h in
theorem Part.noteClosed_markQueue (o : Owner) (x : Hide) : (p.noteClosed o x).lots.markQueue = p.lots.markQueue := by
  cases o <;> rfl

/-- Under `Calm` a close by RESTART leaves the part so, with one record more at most. -/
theorem Part.Calm.closeHide (o : Owner) : (p.closeHide .restart o).Calm ∧
    (p.closeHide .restart o).recorder.outgoing.length ≤ p.recorder.outgoing.length + 1 := by
  have hbreached : (p.breachOwned o).Calm := h.of_eq (by simp) (by simp) (by simp)
  rcases hx : (p.breachOwned o).hideOf o with - | x
  · rw [Part.closeHide_of_none _ hx]
    exact ⟨hbreached, by simp⟩
  · rw [Part.closeHide_restart_eq h.closing hx]
    have hreleased := hbreached.release ((p.breachOwned o).infoOf o.source (CloseCause.restart.marked x))
      (.unstamped .truncated) none
    have hlength := Part.release_length_le (p := p.breachOwned o)
      ((p.breachOwned o).infoOf o.source (CloseCause.restart.marked x)) (.unstamped .truncated) none
    rw [Part.breachOwned_recorder] at hlength
    generalize (p.breachOwned o).release _ _ _ = q at hreleased hlength
    have hnoted : ((q.setHide o none).noteClosed o (CloseCause.restart.marked x)).Calm :=
      hreleased.of_eq ((Part.noteClosed_closing _ _).trans (by simp)) ((Part.noteClosed_markQueue _ _).trans (by simp)) (by simp)
    rw [hnoted.reexamineMarks_eq]
    refine ⟨hnoted.of_eq rfl rfl rfl, ?_⟩
    show ((q.setHide o none).noteClosed o _).recorder.outgoing.length ≤ _
    simpa using hlength

end Calm

/-- The record of a hide that RESTART closes (R46, R83): UNSTAMPED(TRUNCATED), with its number and lot, under REVIEW. -/
def truncatedRecord (id : Half × Half) (r : Record) : Prop :=
  ∃ info : HideInfo, r = .hide info (.unstamped .truncated) none ∧ (info.number, info.lot) = id ∧
    info.flags.truncated = true ∧ info.grade = .review

theorem Part.infoOf_restart_marked (p : Part) (x : Source) (h : Hide) :
    let info := p.infoOf x (CloseCause.restart.marked h)
    (info.number, info.lot) = (h.number, h.lot) ∧ info.flags.truncated = true ∧ info.grade = .review := by
  have hgrade : gradeOf p.setup.guarded p.setup.unguarded x { h.flags with truncated := true }
      (unitsOf p.setup.guarded (h.covered + h.filled)) none = .review := by
    unfold gradeOf
    exact if_pos (by simp [HideFlags.review])
  exact ⟨rfl, rfl, hgrade⟩

theorem Part.closeHide_truncatedRecord {p : Part} (hc : p.lots.closing = none) (hlt : p.recorder.outgoing.length < 8)
    {o : Owner} {id : Half × Half} (hid : p.idOf o = some id) :
    ∃ r ∈ (p.closeHide .restart o).recorder.outgoing, truncatedRecord id r := by
  rw [← Part.breachOwned_idOf p o] at hid
  obtain ⟨x, hx, hxid⟩ := Option.map_eq_some_iff.1 hid
  obtain ⟨hinfo, htrunc, hgrade⟩ := (p.breachOwned o).infoOf_restart_marked o.source x
  have hbreached : p.Appends (p.breachOwned o) := .of_eq hc (by simp) (by simp)
  have hreleased := Part.release_appends hbreached.closing
    ((p.breachOwned o).infoOf o.source (CloseCause.restart.marked x)) (.unstamped .truncated) none
  have hrest := Part.closeHide_restart_rest _ o (CloseCause.restart.marked x) hreleased.closing
  rw [Part.closeHide_restart_eq hc hx]
  refine ⟨_, hrest.outgoing.subset ?_, _, rfl, hinfo.trans hxid, htrunc, hgrade⟩
  rw [Part.release_outgoing _ _ _ (by simpa using hlt)]
  exact List.mem_append_right _ (List.mem_singleton_self _)

/-- Every hide that RESTART closes has its record, where there is room for them all. -/
theorem Part.closeAll_truncatedRecords {p : Part} (h : p.Calm) (os : List Owner) (hnodup : os.Nodup)
    (hroom : p.recorder.outgoing.length + os.length ≤ 8) {o : Owner} (ho : o ∈ os) {id : Half × Half}
    (hid : p.idOf o = some id) : ∃ r ∈ (p.closeAll .restart os).recorder.outgoing, truncatedRecord id r := by
  induction os generalizing p with
  | nil => exact absurd ho (List.not_mem_nil)
  | cons x os ih =>
    obtain ⟨hfresh, htail⟩ := List.nodup_cons.1 hnodup
    rw [List.length_cons] at hroom
    obtain ⟨hcalm, hlength⟩ := h.closeHide x
    rw [Part.closeAll, List.foldl_cons, ← Part.closeAll]
    by_cases hox : o = x
    · subst hox
      obtain ⟨r, hr, hrecord⟩ := Part.closeHide_truncatedRecord h.closing (by omega) hid
      exact ⟨r, (Part.closeAll_restart_appends hcalm.closing os).outgoing.subset hr, hrecord⟩
    · refine ih hcalm htail (by omega) ((List.mem_cons.1 ho).resolve_left hox) ?_
      rw [Part.closeHide_idOf, if_neg hox]
      exact hid

theorem Part.takeRestart_truncatedRecords {p : Part} (h : p.Calm)
    (hroom : p.recorder.outgoing.length + (p.currentGone ++ p.sched.waiting).length + p.openHides.length ≤ 8) {x : Hide}
    (hx : x ∈ p.openHides) : ∃ r ∈ p.takeRestart.recorder.outgoing, truncatedRecord (x.number, x.lot) r := by
  obtain ⟨hcalm, hlength⟩ := h.schedulerRestart
  obtain ⟨o, ho⟩ := (p.mem_openHides x).1 hx
  have hhides : p.schedulerRestart.openHides = p.openHides := by simp [Part.openHides]
  have hheld : p.schedulerRestart.hideOf o = some x := by
    rw [← ho]; cases o <;> simp [Part.hideOf]
  have hperm := p.schedulerRestart.closeOrder_perm p.schedulerRestart.openOwners
  obtain ⟨r, hr, hrecord⟩ := Part.closeAll_truncatedRecords hcalm _
    (hperm.nodup_iff.2 p.schedulerRestart.openOwners_nodup)
    (by rw [hperm.length_eq, Part.openOwners_length, hhides]; omega)
    (hperm.mem_iff.2 ((p.schedulerRestart.mem_openOwners o).2 (by rw [hheld]; rfl)))
    (id := (x.number, x.lot)) (by rw [Part.idOf, hheld]; rfl)
  have hclosed := Part.closeAll_restart_appends hcalm.closing (p.schedulerRestart.closeOrder p.schedulerRestart.openOwners)
  have hquiet := Part.quietTests_appends (p := (p.schedulerRestart.closeAll .restart
    (p.schedulerRestart.closeOrder p.schedulerRestart.openOwners)).emptyLists) hclosed.closing
  exact ⟨r, hquiet.outgoing.subset hr, hrecord⟩

end Sys2Proof.Machine

/-! ## RESTART -/

namespace Sys2Proof.Machine

section RestartTaken

variable (p : Part) (tag : Half)

/-- Row intake's part of RESTART (R19): a wait for sync, an empty queue, and its rows counted dropped. -/
theorem Part.restartTaken_intake : (p.restartTaken tag).intake = { p.intake with
    queue := [], syncPending := true, dropped := p.intake.dropped + BitVec.ofNat 32 p.intake.queue.length } := by
  unfold Part.restartTaken Part.intakeRestart Part.countDropped
  dsimp only
  split
  · next h => simp [show p.intake.queue.length = 0 by simpa using h]
  · simp [Part.mark]

theorem Part.restartTaken_setup : (p.restartTaken tag).setup =
    { p.setup with result := { tag := tag, code := 7, result := .done, offset := 0 } } := by
  rw [← p.answer_setup tag 7 .done]
  unfold Part.restartTaken Part.intakeRestart Part.countDropped
  dsimp only
  split <;> rfl

/-- RESTART's part before the tracker takes it touches row intake, the result and the dirty set alone. -/
theorem Part.restartTaken_kept : (p.restartTaken tag).holes = p.holes ∧ (p.restartTaken tag).sched = p.sched ∧
    (p.restartTaken tag).head = p.head ∧ (p.restartTaken tag).belt = p.belt ∧ (p.restartTaken tag).lots = p.lots ∧
    (p.restartTaken tag).recorder = p.recorder := by
  unfold Part.restartTaken Part.intakeRestart Part.countDropped
  dsimp only
  split <;> simp [Part.mark]

end RestartTaken

section TakeRestart

variable (p : Part)

theorem Part.closeHide_restart_sched (o : Owner) : (p.closeHide .restart o).sched = p.sched := by
  rcases hx : (p.breachOwned o).hideOf o with - | x
  · rw [Part.closeHide_of_none _ hx, Part.breachOwned_sched]
  · have hleft : ((p.breachOwned o).takeHide o.source .restart (CloseCause.restart.marked x)).sched = p.sched :=
      (Part.leaveUnstamped_sched _ _ _).trans (p.breachOwned_sched o)
    rw [Part.closeHide_of_some _ hx]
    show (Part.reexamineMarks _).sched = _
    rw [Part.reexamineMarks_sched, Part.noteClosed_sched, Part.setHide_sched, hleft]

/-- Closing hides by RESTART leaves the scheduler as its own part of RESTART left it. -/
theorem Part.takeRestart_sched : p.takeRestart.sched = p.schedulerRestart.sched := by
  unfold Part.takeRestart
  dsimp only
  rw [Part.quietTests_sched]
  exact foldl_keep (f := Part.sched) (fun q o => q.closeHide_restart_sched o) _ _

theorem Part.takeRestart_tracker_kept : p.takeRestart.tracker.counter = p.tracker.counter ∧
    p.takeRestart.tracker.closed = p.tracker.closed + BitVec.ofNat 32 p.openHides.length := by
  have hhides : p.schedulerRestart.openHides = p.openHides := by simp [Part.openHides]
  have hclosed := (p.schedulerRestart.closeAll_closeOrder .restart).2
  have hcounter := p.schedulerRestart.closeAll_counter .restart (p.schedulerRestart.closeOrder p.schedulerRestart.openOwners)
  rw [hhides, Part.schedulerRestart_tracker] at hclosed
  rw [Part.schedulerRestart_tracker] at hcounter
  unfold Part.takeRestart
  dsimp only
  rw [Part.quietTests_tracker]
  exact ⟨hcounter, hclosed⟩

end TakeRestart

/-- RESTART with no pass in progress: what the tracker and the scheduler are left with, and the records. -/
theorem Part.takeRestart_closes (p : Part) :
    let t := p.takeRestart
    let gone := p.currentGone ++ p.sched.waiting
    t.Emptied ∧ (∀ h ∈ t.sched.heights, h = 0) ∧ t.sched.waiting = [] ∧
      (∀ j, t.sched.current = some j → j.state = .striking ∧ p.sched.current = some j) ∧
      (∀ j, p.sched.current = some j → j.state = .striking → t.sched.current = some j) ∧
      t.tracker.closed = p.tracker.closed + BitVec.ofNat 32 p.openHides.length ∧
      (p.lots.closing = none → p.recorder.outgoing.length + gone.length ≤ 8 →
        (p.recorder.outgoing ++ gone.map Job.restartRecord) <+: t.recorder.outgoing) ∧
      (p.lots.closing = none → p.setup.snapshot = none → p.lots.markQueue = [] →
        p.recorder.outgoing.length + gone.length + p.openHides.length ≤ 8 →
        ∀ h ∈ p.openHides, ∃ r ∈ t.recorder.outgoing, truncatedRecord (h.number, h.lot) r) := by
  obtain ⟨hheights, hwaiting, hcurrent, hstriking⟩ := p.schedulerRestart_sched
  dsimp only
  rw [p.takeRestart_sched]
  exact ⟨p.takeRestart_emptied, hheights, hwaiting, hcurrent, hstriking, p.takeRestart_tracker_kept.2,
    fun hc => Part.takeRestart_outgoing hc,
    fun hc hs hm hroom _ hh => Part.takeRestart_truncatedRecords ⟨hc, hs, hm⟩ hroom hh⟩

/-- Settles O24: row intake's part at once, then, with no pass in progress, the tracker's and the scheduler's
(`Part.takeRestart_closes`); in a pass those wait. -/
theorem restartClosesEverything : Obligations.RestartClosesEverything := by
  intro tag s
  have hintake := s.part.restartTaken_intake tag
  have hsetup := s.part.restartTaken_setup tag
  have htracker := s.part.restartTaken_tracker tag
  obtain ⟨hholes, hsched, hhead, hbelt, hlots, hrecorder⟩ := s.part.restartTaken_kept tag
  rcases hp : s.part.tracker.pass with - | x
  · have hkeeps := (s.part.restartTaken tag).keeps_takeRestart
    have hgone : (s.part.restartTaken tag).currentGone = s.part.currentGone := by rw [Part.currentGone, hsched]; rfl
    have hhides : (s.part.restartTaken tag).openHides = s.part.openHides := by rw [Part.openHides, htracker]; rfl
    obtain ⟨hempty, hheights, hwaiting, hcurrent, hstriking, hclosed, hmissed, htruncated⟩ :=
      (s.part.restartTaken tag).takeRestart_closes
    rw [hsched] at hcurrent hstriking
    rw [htracker, hhides] at hclosed
    rw [hlots, hrecorder, hgone, hsched] at hmissed
    rw [hlots, hrecorder, hgone, hsched, hhides, hsetup] at htruncated
    refine ⟨{ s with part := (s.part.restartTaken tag).takeRestart },
      by rw [exec_restart_eq, Part.restart_no_pass _ _ hp], rfl, ?_, ?_, ?_, ?_, ?_, ?_, ?_, ?_, fun _ => ?_,
      fun h => by simp at h⟩
    · rw [Part.takeRestart_queue, hintake]
    · exact hkeeps.sync (by rw [hintake])
    · rw [hkeeps.dropped, hintake]
    · rw [hkeeps.accepted, hintake]
    · rw [Part.takeRestart_belt, hbelt]
    · rw [Part.takeRestart_rowIndex, htracker]
    · rw [(Part.takeRestart_tracker_kept _).1, htracker]
    · rw [hkeeps.result, hsetup]
    · dsimp only
      refine ⟨hempty.hides, hempty.prev, hempty.cur, hempty.prevRuns, hempty.curRuns, hheights, hwaiting, hcurrent, hstriking,
        hclosed, hmissed, fun hc hs hm hroom h hh => ?_⟩
      obtain ⟨r, hr, info, rfl, hid, htrunc, hgrade⟩ := htruncated hc hs hm hroom h hh
      obtain ⟨hnumber, hlot⟩ := Prod.mk.inj hid
      exact ⟨info, hr, hnumber, hlot, htrunc, hgrade⟩
  · refine ⟨{ s with part := s.part.restart tag }, exec_restart_eq tag s, rfl, ?_⟩
    rw [Part.restart_in_pass _ _ (by rw [hp]; rfl)]
    dsimp only
    rw [hintake, hsetup, htracker]
    exact ⟨rfl, rfl, rfl, rfl, hbelt, rfl, rfl, rfl, fun h => by simp at h, fun _ => ⟨rfl, hsched, hholes, hhead⟩⟩

end Sys2Proof.Machine

/-! ## Every step keeps every bound -/

namespace Sys2Proof.Machine

/-- A next state, if the outcome is one, has every bound and agreement. -/
def AnswersOk (o : Host.Outcome State Fault Refusal) : Prop := ∀ t, o = .next t → t.ok

theorem AnswersOk.next {t : State} (h : t.ok) : AnswersOk (.next t) := fun _ e => Host.Outcome.next.inj e ▸ h

/-- The outcome of a command that is refused when its operands spell nothing (log entry 25). -/
theorem AnswersOk.unless {c : Prop} [Decidable c] {t : State} (h : t.ok) :
    AnswersOk (if c then .next t else .refused .illFormed) := by
  split
  · exact .next h
  · exact fun _ e => absurd e (by simp)

section Bounds

variable {s : State} (h : s.ok)
include h

/-- A command that acts inside the part alone keeps the bounds when the part's operation does. -/
theorem State.onPart_ok {f : Part → Part} (hf : s.part.ok → (f s.part).ok) : (s.onPart f).ok :=
  State.withPart_ok _ (hf h.2.2) h

/-- A word is handed in only to a free place of the posted write queue (R171). -/
theorem State.ifPlace_ok {t : State} (ht : s.path.placesTaken < 16 → t.ok) : (if s.path.hasPlace then t else s).ok := by
  split
  · next hplace => exact ht (of_decide_eq_true hplace)
  · exact h

/-- Every command keeps every bound and agreement, by the operation it is. -/
theorem exec_answersOk (i : Instr) : AnswersOk (exec i s) := by
  cases i with
  | powerOnReset straps => exact .next (State.powerOn_ok straps h)
  | upstreamTransaction request pause => exact .unless (State.upstream_ok request pause h)
  | postedWordWrite => exact .next (State.startPartWord_ok h)
  | partWordComplete => exact .next (State.completePartWord_ok h)
  | beamWordWrite slot offset en data => exact .next (State.onPart_ok h (Part.beamWord_ok _ _ _ _))
  | headerWrite slot en data => exact .next (State.onPart_ok h (Part.header_ok _ _ _))
  | rowPass units => exact .next (State.onPart_ok h (Part.rowPass_ok _))
  | recordMoveOut => exact .next (State.onPart_ok h Part.moveOut_ok)
  | recordWordHandIn => exact .next (State.ifPlace_ok h (State.postRecordWord_ok · h))
  | producerIndexHandIn => exact .next (State.ifPlace_ok h (State.postProducerIndex_ok · h))
  | statusWordPost => exact .next (State.ifPlace_ok h (State.postStatus_ok · h))
  | setupWordWrite word en data => exact .unless (State.onPart_ok h (Part.setupBeat_ok _ _ _))
  | argumentWordWrite which en data => exact .next (State.onPart_ok h (Part.writeArgument_ok _ _ _))
  | consumerIndexWrite en data => exact .next (State.onPart_ok h (Part.writeConsumer_ok _ _))
  | statusBlockWrite word => exact .unless (State.onPart_ok h (Part.mark_ok _))
  | markWindowMatch write wordAddr en data => exact .next (State.onPart_ok h (Part.markBeat_ok _ _ _ _))
  | commit tag => exact .next (State.onPart_ok h (Part.commit_ok _))
  | lotNext tag => exact .next (State.onPart_ok h (Part.lotNext_ok _))
  | manualEnter tag => exact .next (State.onPart_ok h (Part.manualEnter_ok _))
  | clearSticky tag => exact .next (State.onPart_ok h (Part.clearStickyCmd_ok _))
  | headReset tag => exact .next (State.onPart_ok h (Part.headReset_ok _))
  | parkNow tag => exact .next (State.onPart_ok h (Part.parkNow_ok _))
  | restart tag => exact .next (State.onPart_ok h (Part.restart_ok _))
  | unknownCommand code tag => exact .unless (State.onPart_ok h (Part.unknownCommand_ok _ _))
  | haltTimerExpiry => exact .next (State.onPart_ok h Part.takeHaltExpiry_ok)
  | parkTimerExpiry => exact .next (State.onPart_ok h Part.parkExpiry_ok)
  | frameBoundary => exact .next (State.onPart_ok h Part.boundaryIfIdle_ok)
  | frameEnd c w1 w2 w3 w4 w5 => exact .next (State.onPart_ok h (Part.endFrameIfSent_ok _ rfl))
  | noStrike => exact .next (State.onPart_ok h Part.windowRunsOut_ok)

end Bounds

/-- Settles O6: a step is a microsecond (`Part.tick_ok`) or the front command (`exec_answersOk`); no bound reads the commands
that wait. -/
theorem everyBoundIsKept : Obligations.EveryBoundIsKept := by
  intro s t h he
  cases hp : s.pending with
  | nil => exact AnswersOk.next (State.withPart_ok _ (Part.tick_ok h.2.2) h) t ((step_nil s hp).symm.trans he)
  | cons c rest =>
    have hrest : State.ok { s with pending := rest } := h
    exact exec_answersOk hrest c t ((step_cons s c rest hp).symm.trans he)

end Sys2Proof.Machine

/-! ## Hide numbers, and the first row after power-on reset -/

namespace Sys2Proof.Machine

/-! ### Going round the numbers (R28) -/

/-- The numbers go round in 1 to 65535. -/
theorem nextNumber_toNat (n : Half) (hn : n ≠ 0) : (nextNumber n).toNat = n.toNat % 65535 + 1 := by
  have hpos : n.toNat ≠ 0 := fun e => hn (BitVec.eq_of_toNat_eq e)
  have hlt := n.isLt
  unfold nextNumber
  split
  · next h => subst h; rfl
  · next h =>
    have hlast : n.toNat ≠ 65535 := fun e => h (BitVec.eq_of_toNat_eq e)
    rw [BitVec.toNat_add, show (1 : Half).toNat = 1 from rfl]
    omega

theorem nextNumber_iterate_toNat (k : Nat) (n : Half) (hn : n ≠ 0) :
    (nextNumber^[k] n).toNat = (n.toNat - 1 + k) % 65535 + 1 := by
  have hpos : n.toNat ≠ 0 := fun e => hn (BitVec.eq_of_toNat_eq e)
  have hlt := n.isLt
  induction k generalizing n with
  | zero => rw [Function.iterate_zero, id]; omega
  | succ k ih =>
    have hnext := nextNumber_toNat n hn
    have hne := nextNumber_ne n
    rw [Function.iterate_succ_apply, ih _ hne (by omega) (nextNumber n).isLt, hnext]
    omega

/-- The first 65535 numbers from a number on are different. -/
theorem nextNumber_iterate_nodup (k : Nat) (n : Half) (hn : n ≠ 0) (hk : k ≤ 65535) :
    ((List.range k).map (fun i => nextNumber^[i] n)).Nodup := by
  refine List.Nodup.map_on (fun i hi j hj e => ?_) List.nodup_range
  have heq := congrArg BitVec.toNat e
  rw [nextNumber_iterate_toNat i n hn, nextNumber_iterate_toNat j n hn] at heq
  have hi' := List.mem_range.1 hi
  have hj' := List.mem_range.1 hj
  omega

/-- A number that is not carried is not passed over. -/
theorem skipCarried_of_not_mem {l : List Half} {n : Half} (k : Nat) (h : n ∉ l) : skipCarried l k n = n := by
  cases k with
  | zero => rfl
  | succ k => exact if_neg (by simpa using h)

/-- A carried answer means that every number passed over was carried. -/
theorem iterate_mem_of_skipCarried_mem {l : List Half} {k : Nat} {n : Half} (h : skipCarried l k n ∈ l) :
    ∀ i, i ≤ k → nextNumber^[i] n ∈ l := by
  induction k generalizing n with
  | zero => intro i hi; rw [Nat.le_zero.1 hi]; exact h
  | succ k ih =>
    by_cases hn : n ∈ l
    · have hstep : skipCarried l (k + 1) n = skipCarried l k (nextNumber n) := if_pos (by simpa using hn)
      rw [hstep] at h
      intro i hi
      cases i with
      | zero => exact hn
      | succ i => exact ih h i (Nat.le_of_succ_le_succ hi)
    · rw [skipCarried_of_not_mem _ hn] at h
      exact absurd h hn

/-- Fewer than 65535 numbers carried: one more try than there are of them comes to a free one. -/
theorem skipCarried_not_mem {l : List Half} {n : Half} (hn : n ≠ 0) (hl : l.length < 65535) :
    skipCarried l (l.length + 1) n ∉ l := by
  intro h
  have htried : (List.range (l.length + 1)).map (fun i => nextNumber^[i] n) ⊆ l := by
    intro x hx
    obtain ⟨i, hi, rfl⟩ := List.mem_map.1 hx
    exact iterate_mem_of_skipCarried_mem h i (Nat.le_of_lt (List.mem_range.1 hi))
  have hlength := ((nextNumber_iterate_nodup (l.length + 1) n hn (by omega)).subperm htried).length_le
  rw [List.length_map, List.length_range] at hlength
  omega

/-! ### Drawing a number (R28, R115) -/

section Draw

variable (p : Part)

/-- The counter's number is drawn when nothing carries it. -/
theorem Part.drawNumber_of_fresh (h : p.tracker.counter ∉ p.carriedNumbers) : p.drawNumber.1 = p.tracker.counter :=
  skipCarried_of_not_mem _ h

end Draw

/-- Settles O21: of one more number than are carried, one is free (`skipCarried_not_mem`). -/
theorem hideNumberIsFree : Obligations.HideNumberIsFree := by
  intro p hcounter hroom
  have hfree : p.drawNumber.1 ∉ p.carriedNumbers := skipCarried_not_mem hcounter hroom
  refine ⟨skipCarried_ne _ _ _ hcounter, fun h hh e => hfree ?_, fun j hj e => hfree ?_, rfl, p.drawNumber_of_fresh⟩
  · exact List.mem_append_left _ (List.mem_map.2 ⟨h, hh, e⟩)
  · exact List.mem_append_right _ (List.mem_map.2 ⟨j, hj, e⟩)

/-! ### The first row (R47) -/

/-- With no job there is nothing for an increment of the row index to settle (R121). -/
theorem Part.settleIncrement_of_no_jobs {p : Part} (hc : p.sched.current = none) (hw : p.sched.waiting = []) :
    p.settleIncrement = p := by
  have hcurrent : p.settleCurrent = p := by unfold Part.settleCurrent; rw [hc]
  have hname : p.nameAndStart = p := by
    unfold Part.nameAndStart Part.nameJob Part.startJob
    simp [hc, hw]
  unfold Part.settleIncrement
  dsimp only
  rw [hcurrent, hw]
  exact hname

/-- Settles O10: nothing is open after the reset, so nothing overlaps and no number is carried. -/
theorem powerOnTracker : Obligations.PowerOnTracker := by
  intro straps s
  refine ⟨s.powerOn straps, rfl, fun h hh => List.eq_of_mem_replicate hh, rfl, rfl, rfl, rfl, rfl, rfl, rfl, rfl, rfl, rfl,
    fun r rest => ?_⟩
  intro q
  have hq : q = _ := (Part.takeRow_eq rfl).trans (Part.settleIncrement_of_no_jobs rfl rfl)
  have hnone : q.carriedNumbers = [] := by rw [hq]; rfl
  refine ⟨by rw [hq]; rfl, fun g => by rw [hq]; rfl, ?_⟩
  rw [Part.drawNumber_of_fresh _ (by rw [hnone]; exact List.not_mem_nil), hq]
  rfl

end Sys2Proof.Machine

/-! ## Grade, symbols and eligibility of a hide handed over -/

namespace Sys2Proof.Machine

/-! ### Grade and symbols (R73 to R75) -/

/-- The wheels show every number of units up to the maximum stampable, and none above it (R73, R74). -/
theorem symbolsOf_eq_none_iff (u : SellUnit) (units : Nat) : symbolsOf u units = none ↔ u.maxStampable < units := by
  unfold symbolsOf
  split
  · next h => exact ⟨fun _ => h, fun _ => rfl⟩
  · next h => exact ⟨fun e => absurd e (by simp), fun hlt => absurd hlt h⟩

/-- A flag of R75 makes a hide REVIEW. -/
theorem gradeOf_of_review (g : Guarded) (u : Unguarded) (s : Source) {f : HideFlags} (units : Nat) (k : Option Nat)
    (h : f.review = true) : gradeOf g u s f units k = .review := if_pos (by rw [h, Bool.true_or])

/-- What cannot be shown on the wheels is REVIEW, SMALL or OVERSIZE (R74). -/
theorem gradeReason_of_unshown (g : Guarded) (u : Unguarded) (s : Source) (f : HideFlags) (units : Nat) (k : Option Nat)
    (h : g.unit.maxStampable < units) : gradeReason (gradeOf g u s f units k) ≠ none := by
  unfold gradeOf
  split
  · simp [gradeReason]
  · split
    · simp [gradeReason]
    · rw [if_pos (.inr h)]; simp [gradeReason]

theorem gradeReason_eq_none_iff (g : Grade) : gradeReason g = none ↔ g ≠ .review ∧ g ≠ .small ∧ g ≠ .oversize := by
  cases g <;> simp [gradeReason]

/-- Check 2 finds the hide's band with its stamp-enable OFF (R79). -/
theorem bandOff_iff (u : Unguarded) (g : Grade) :
    bandOff u g = true ↔ ∃ k b, g = .band k ∧ u.bands[k]? = some b ∧ b.stamp = false := by
  cases g with
  | band k =>
    simp only [bandOff, List.getD_eq_getElem?_getD, Grade.band.injEq]
    cases hk : u.bands[k]? with
    | none => simp [hk]
    | some b => simp [hk]
  | ungraded => simp [bandOff]
  | small => simp [bandOff]
  | oversize => simp [bandOff]
  | review => simp [bandOff]

/-! ### The checks in their order (R79 to R82) -/

section Checks

variable {p : Part} {info : HideInfo}

theorem Part.unstampedReason_of_grade {r : UnstampedReason} (h : gradeReason info.grade = some r) :
    p.unstampedReason info = some r := by
  unfold Part.unstampedReason
  rw [h]

/-- Check 2. -/
theorem Part.unstampedReason_bandOff (hg : gradeReason info.grade = none)
    (hb : bandOff p.setup.unguarded info.grade = true) : p.unstampedReason info = some .bandOff := by
  unfold Part.unstampedReason
  rw [hg]
  exact if_pos hb

variable (hg : gradeReason info.grade = none) (hb : bandOff p.setup.unguarded info.grade = false)
include hg hb

/-- Check 3. -/
theorem Part.unstampedReason_stampOff (hs : p.setup.unguarded.stamping = false) :
    p.unstampedReason info = some .stampOff := by
  unfold Part.unstampedReason
  simp [hg, hb, hs]

variable (hs : p.setup.unguarded.stamping = true)
include hs

/-- Check 4. -/
theorem Part.unstampedReason_headFault (hh : p.head.state = .faulted) : p.unstampedReason info = some .headFault := by
  unfold Part.unstampedReason
  simp [hg, hb, hs, hh]

variable (hh : p.head.state ≠ .faulted)
include hh

/-- Check 5. -/
theorem Part.unstampedReason_noSite (hx : info.site = none) : p.unstampedReason info = some .noSite := by
  unfold Part.unstampedReason
  simp [hg, hb, hs, hh, hx]

/-- Checks 6 and 7, which read the site. -/
theorem Part.unstampedReason_of_site {x : Site} (hx : info.site = some x) : p.unstampedReason info =
    if (p.tracker.rowIndex - (x.row + BitVec.ofNat 32 p.setup.guarded.lineOffset)).toNat < 2147483648 then some .lateClose
    else if 8 ≤ p.jobs.length then some .queueFull
    else none := by
  unfold Part.unstampedReason
  simp [hg, hb, hs, hh, hx, atOrBefore, strikeRowOf]

end Checks

/-! ### Handing over (R68, R74, R83) -/

section HandOver

variable {p : Part} {info : HideInfo}

theorem Part.handOn_of_some {r : UnstampedReason} (h : p.unstampedReason info = some r) :
    p.handOn info = p.leaveUnstamped info r := by
  unfold Part.handOn
  rw [h]

theorem Part.handOn_of_none {x : Site} {y : Symbols} (h : p.unstampedReason info = none) (hx : info.site = some x)
    (hy : info.symbols = some y) : p.handOn info = p.makeJob info x y := by
  unfold Part.handOn
  rw [h, hx, hy]

theorem Part.takeHide_row (p : Part) (src : Source) {c : CloseCause} (h : Hide) (hc : c ≠ .restart) :
    p.takeHide src c h = p.handOn (p.infoOf src h) := if_neg hc

theorem Part.takeHide_restart (p : Part) (src : Source) (h : Hide) :
    p.takeHide src .restart h = p.leaveUnstamped (p.infoOf src h) .truncated := rfl

/-- A hide that no check refuses has its site. -/
theorem Part.site_of_unstampedReason_none (h : p.unstampedReason info = none) : ∃ x, info.site = some x := by
  rw [← Option.ne_none_iff_exists']
  intro hx
  unfold Part.unstampedReason at h
  simp only [hx] at h
  (repeat' split at h) <;> exact absurd h (by simp)

theorem Part.gradeReason_of_unstampedReason_none (h : p.unstampedReason info = none) : gradeReason info.grade = none := by
  cases hg : gradeReason info.grade with
  | none => rfl
  | some r => rw [Part.unstampedReason_of_grade hg] at h; exact absurd h (by simp)

/-- A hide that no check refuses has its symbols (R74): those without are REVIEW, SMALL or OVERSIZE. -/
theorem Part.symbols_of_unstampedReason_none (src : Source) (x : Hide) (h : p.unstampedReason (p.infoOf src x) = none) :
    ∃ y, (p.infoOf src x).symbols = some y := by
  rw [← Option.ne_none_iff_exists']
  intro hy
  exact gradeReason_of_unshown _ _ _ _ _ _ ((symbolsOf_eq_none_iff _ _).1 hy) (Part.gradeReason_of_unstampedReason_none h)

/-- What the hand-over of a hide makes of it when no check refuses it: a job (R114). -/
theorem Part.handOn_makes_job (src : Source) (z : Hide) (h : p.unstampedReason (p.infoOf src z) = none) :
    ∃ x y, z.site = some x ∧ (p.infoOf src z).symbols = some y ∧
      p.handOn (p.infoOf src z) = p.makeJob (p.infoOf src z) x y := by
  obtain ⟨x, hx⟩ := Part.site_of_unstampedReason_none h
  obtain ⟨y, hy⟩ := Part.symbols_of_unstampedReason_none src z h
  exact ⟨x, y, hx, hy, Part.handOn_of_none h hx hy⟩

end HandOver

/-- Settles O33, check by check in their order. -/
theorem eligibilityChecks : Obligations.EligibilityChecks := by
  intro p src h info strike ungradedOrOn cleared
  have hpass : cleared → gradeReason info.grade = none := (gradeReason_eq_none_iff _).2
  have hon : ungradedOrOn → bandOff p.setup.unguarded info.grade = false := by
    intro hu
    rw [← Bool.not_eq_true, bandOff_iff]
    rintro ⟨k, b, hk, hget, hoff⟩
    exact hu k hk (by rw [hget, Option.map_some, hoff])
  refine ⟨rfl, fun hg => ?_, fun hg => ?_, fun hg => ?_, fun k b hk hget hoff => ?_, fun hc hu => ?_, fun hc hu hs => ?_,
    fun r hr => ?_, fun hr => ?_, fun ht => ?_⟩
  · exact Part.unstampedReason_of_grade (by rw [hg]; rfl)
  · exact Part.unstampedReason_of_grade (by rw [hg]; rfl)
  · exact Part.unstampedReason_of_grade (by rw [hg]; rfl)
  · exact Part.unstampedReason_bandOff (by rw [hk]; rfl) ((bandOff_iff _ _).2 ⟨k, b, hk, hget, hoff⟩)
  · exact Part.unstampedReason_stampOff (hpass hc) (hon hu)
  · refine ⟨Part.unstampedReason_headFault (hpass hc) (hon hu) hs, fun hh => ?_⟩
    refine ⟨Part.unstampedReason_noSite (hpass hc) (hon hu) hs hh, fun x hx => ?_⟩
    rw [Part.unstampedReason_of_site (hpass hc) (hon hu) hs hh hx]
    refine ⟨fun hlate => if_pos hlate, fun hahead hfull => ?_, fun hahead hroom => ?_⟩
    · rw [if_neg (Nat.not_lt.2 hahead), if_pos hfull]
    · rw [if_neg (Nat.not_lt.2 hahead), if_neg (Nat.not_le.2 hroom)]
  · rw [Part.takeHide_row _ _ _ (by simp)]
    exact Part.handOn_of_some hr
  · rw [Part.takeHide_row _ _ _ (by simp)]
    exact Part.handOn_makes_job src h hr
  · exact ⟨gradeOf_of_review _ _ _ _ _ (by simp [HideFlags.review, ht]), Part.takeHide_restart _ _ _⟩

end Sys2Proof.Machine

/-! ## Births -/

namespace Sys2Proof.Machine

/-! ### The lowest FREE entry (R30) -/

theorem lowestFree_eq_some {t : List (Option Hide)} {j : Nat} (n : Nat) (hj : t[j]? = some none)
    (hlow : ∀ k : Nat, k < j → t[k]? ≠ some none) : lowestFree t n = some (n + j) := by
  induction t generalizing j n with
  | nil => simp at hj
  | cons x t ih =>
    cases x with
    | none =>
      cases j with
      | zero => rfl
      | succ j => exact absurd rfl (hlow 0 (Nat.succ_pos j))
    | some h =>
      cases j with
      | zero => simp at hj
      | succ j =>
        rw [lowestFree, ih (n + 1) hj (fun k hk => hlow (k + 1) (Nat.succ_lt_succ hk))]
        exact congrArg some (by omega)

theorem lowestFree_eq_none {t : List (Option Hide)} (n : Nat) (h : ∀ j : Nat, t[j]? ≠ some none) : lowestFree t n = none := by
  induction t generalizing n with
  | nil => rfl
  | cons x t ih =>
    cases x with
    | none => exact absurd rfl (h 0)
    | some y => exact ih (n + 1) (fun j => h (j + 1))

/-! ### The lot of a birth (R86, R88) -/

section BirthLot

variable (p : Part)

/-- The OPEN lot has the birth, and the pack counter counts it (R86, R88). -/
def Part.countBirth : Part :=
  { p with lots.openLot := p.lots.openLot.addBirth, lots.packCounter := p.lots.packCounter + 1 }

theorem Part.packDue_countBirth : p.countBirth.packDue = true ↔
    p.setup.unguarded.packSize ≠ 0 ∧ p.setup.unguarded.packSize ≤ p.lots.packCounter + 1 :=
  Bool.and_eq_true_iff.trans (and_congr decide_eq_true_iff decide_eq_true_iff)

/-- A pack transition, written out (R87, R88): the OPEN lot becomes CLOSING with PACK_AUTO. -/
theorem Part.packTransition_eq : p.packTransition = { p with
    lots.closing := some { p.lots.openLot with packAuto := true }
    lots.openLot := Lot.fresh (p.lots.openLot.id + 1) (p.tracker.rowIndex + 1)
    lots.packCounter := 0
    setup.unguarded.windows := p.setup.unguarded.windows.map Window.endOfLot
    dirty := insertRising wClosingLot (insertRising wOpenLot p.dirty) } := by
  simp only [Part.packTransition, Part.lotTransition, Part.mark, Bool.or_true]

theorem before_iff (a b : Word) : before a b = true ↔ a ≠ b ∧ (b - a).toNat < 2147483648 := by
  simp [before, atOrBefore, and_comm]

/-- Before the boundary row a birth is the CLOSING lot's (R86). -/
theorem Part.birthLot_closing {l : Lot} (hl : p.lots.closing = some l)
    (hb : before p.tracker.rowIndex p.lots.openLot.startRow = true) :
    p.birthLot = (l.id, { p with lots.closing := some l.addBirth }) := by
  unfold Part.birthLot
  rw [hl]
  exact if_pos hb

/-- From the boundary row on it is the OPEN lot's, and a pack transition it makes due waits while a lot is CLOSING (R86, R88). -/
theorem Part.birthLot_boundary {l : Lot} (hl : p.lots.closing = some l)
    (hb : ¬ before p.tracker.rowIndex p.lots.openLot.startRow = true) :
    p.birthLot = (p.lots.openLot.id,
      if p.countBirth.packDue then { p.countBirth with lots.packPending := true } else p.countBirth) := by
  unfold Part.birthLot
  rw [hl]
  exact if_neg hb

/-- With no lot CLOSING it is the OPEN lot's, and a pack transition it makes due is made (R86, R88). -/
theorem Part.birthLot_open (hl : p.lots.closing = none) :
    p.birthLot = (p.lots.openLot.id, if p.countBirth.packDue then p.countBirth.packTransition else p.countBirth) := by
  unfold Part.birthLot
  rw [hl]
  rfl

/-- A birth that is the OPEN lot's and makes no pack transition due is counted. -/
theorem Part.birthLot_not_due
    (h : p.lots.closing = none ∨ ¬ before p.tracker.rowIndex p.lots.openLot.startRow = true)
    (hdue : ¬ p.countBirth.packDue = true) : p.birthLot = (p.lots.openLot.id, p.countBirth) := by
  cases hl : p.lots.closing with
  | none => rw [p.birthLot_open hl, if_neg hdue]
  | some l => rw [p.birthLot_boundary hl (h.resolve_left (by simp [hl])), if_neg hdue]

/-- The lot of a birth and the counts are read off the lots, the row index and the pack size. -/
theorem Part.birthLot_congr {p q : Part} (hl : q.lots = p.lots) (hr : q.tracker.rowIndex = p.tracker.rowIndex)
    (hs : q.setup = p.setup) : q.birthLot.1 = p.birthLot.1 ∧ q.birthLot.2.lots = p.birthLot.2.lots := by
  have hcount : q.countBirth.lots = p.countBirth.lots := by simp only [Part.countBirth, hl]
  have hdue : q.countBirth.packDue = p.countBirth.packDue := by
    rw [Bool.eq_iff_iff, Part.packDue_countBirth, Part.packDue_countBirth, hs, hl]
  cases hc : p.lots.closing with
  | none =>
    rw [p.birthLot_open hc, q.birthLot_open (hl ▸ hc), hdue, hl]
    refine ⟨rfl, ?_⟩
    dsimp only
    split
    · simp only [Part.packTransition_eq, Part.countBirth, hl, hr]
    · exact hcount
  | some l =>
    by_cases hb : before p.tracker.rowIndex p.lots.openLot.startRow = true
    · rw [p.birthLot_closing hc hb, q.birthLot_closing (hl ▸ hc) (by rw [hr, hl]; exact hb)]
      exact ⟨rfl, by dsimp only; rw [hl]⟩
    · rw [p.birthLot_boundary hc hb, q.birthLot_boundary (hl ▸ hc) (by rw [hr, hl]; exact hb), hdue, hl]
      refine ⟨rfl, ?_⟩
      dsimp only
      split
      · dsimp only; rw [hcount]
      · exact hcount

end BirthLot

/-! ### The birth (R30, R31) -/

section Birth

variable (p : Part) (g : SegPlan)

/-- The hide that a birth opens (2.3). -/
def Part.newborn : Hide := Hide.newborn p.drawNumber.1 p.drawNumber.2.birthLot.1 p.tracker.rowIndex g

theorem Part.birthAt_eq (o : Owner) : p.birthAt o g = p.drawNumber.2.birthLot.2.setHide o (some (p.newborn g)) := by
  have hrow : p.drawNumber.2.birthLot.2.tracker.rowIndex = p.tracker.rowIndex := by simp
  rw [Part.newborn, ← hrow]
  rfl

theorem Part.birthAt_lots (o : Owner) : (p.birthAt o g).lots = p.birthLot.2.lots := by
  rw [Part.birthAt_eq, Part.setHide_lots]
  exact (Part.birthLot_congr (by simp) (by simp) (by rfl)).2

/-- The tracker after a birth's number is drawn and its lot counted: the counter has gone on. -/
theorem Part.birthLot_drawNumber_tracker :
    p.drawNumber.2.birthLot.2.tracker = { p.tracker with counter := nextNumber p.drawNumber.1 } := by
  rw [Part.birthLot_tracker]
  rfl

theorem Part.birth_entry {i : Nat} (h : lowestFree p.tracker.table 0 = some i) :
    p.birth g = (.entry i, p.birthAt (.entry i) g) := by
  unfold Part.birth
  rw [h]

theorem Part.birth_spill (h : lowestFree p.tracker.table 0 = none) (hs : p.tracker.spill = none) :
    p.birth g = (.spill, (p.birthAt .spill g).raise .hideTableFull (p.drawNumber.1.setWidth 32)) := by
  unfold Part.birth
  rw [h, hs]
  rw [Part.birthAt_eq]
  rfl

theorem Part.birth_spilt (h : lowestFree p.tracker.table 0 = none) (hs : p.tracker.spill.isSome = true) :
    p.birth g = (.spill, p) := by
  obtain ⟨x, hx⟩ := Option.isSome_iff_exists.1 hs
  unfold Part.birth
  rw [h, hx]

/-- A birth that opens a hide reports it: with room for the event, the lots are those of the counted birth. -/
theorem Part.birth_lots (h : p.tracker.spill = none ∨ (∃ i : Nat, p.tracker.table[i]? = some none))
    (hroom : p.recorder.outgoing.length < 8) : (p.birth g).2.lots = p.birthLot.2.lots := by
  cases hfree : lowestFree p.tracker.table 0 with
  | some i => rw [p.birth_entry g hfree]; exact p.birthAt_lots g _
  | none =>
    cases hs : p.tracker.spill with
    | none =>
      rw [p.birth_spill g hfree hs, Part.raise, Part.emit_of_lt _ _ (by simpa using hroom)]
      exact p.birthAt_lots g _
    | some x =>
      have hexists := h.resolve_left (by simp [hs])
      have hlow := Nat.find_spec hexists
      have hmin : ∀ k : Nat, k < Nat.find hexists → p.tracker.table[k]? ≠ some none := fun k => Nat.find_min hexists
      rw [lowestFree_eq_some 0 hlow hmin] at hfree
      simp at hfree

end Birth

/-- Settles O22: the lot of a birth case by case, then the place. -/
theorem birthTakesTheLowestFree : Obligations.BirthTakesTheLowestFree := by
  refine ⟨fun p => ?_, fun p g => ⟨fun h hroom => ⟨p.birth_lots g h hroom, ?_⟩, fun i _ hi hlow => ?_, fun hfull hs => ?_,
    fun hfull hs => p.birth_spilt g (lowestFree_eq_none 0 hfull) hs⟩⟩
  · intro old counted n due early
    have hearly : before p.tracker.rowIndex p.lots.openLot.startRow = true ↔ early := before_iff _ _
    have hdue : p.countBirth.packDue = true ↔ due := p.packDue_countBirth
    refine ⟨fun l hl he => p.birthLot_closing hl (hearly.2 he), fun h hd => ?_, fun hc he hd => ?_, fun hc hd => ?_⟩
    · exact p.birthLot_not_due (h.imp_right (mt hearly.1)) (mt hdue.1 hd)
    · obtain ⟨l, hl⟩ := Option.isSome_iff_exists.1 hc
      rw [p.birthLot_boundary hl (mt hearly.1 he), if_pos (hdue.2 hd)]
      rfl
    · refine ⟨p.countBirth.packTransition, by rw [p.birthLot_open hc, if_pos (hdue.2 hd)], ?_, ?_, ?_⟩
      · rw [Part.packTransition_eq]; rfl
      · rw [Part.packTransition_eq]
        exact (mem_insertRising _ _ _).2 (.inr ((mem_insertRising _ _ _).2 (.inl rfl)))
      · rw [Part.packTransition_eq]
        exact (mem_insertRising _ _ _).2 (.inl rfl)
  · exact (Part.birthLot_congr (by simp) (by simp) (by rfl)).1
  · rw [p.birth_entry g (lowestFree_eq_some 0 hi hlow), Nat.zero_add, Part.birthAt_eq]
    have ht := p.birthLot_drawNumber_tracker
    refine ⟨rfl, ?_, ?_, by simp⟩
    · simp only [Part.setHide, ht]; rfl
    · simp only [Part.setHide, ht]
  · rw [p.birth_spill g (lowestFree_eq_none 0 hfull) hs]
    have ht := p.birthLot_drawNumber_tracker
    refine ⟨rfl, ?_, ?_, fun hroom => ?_⟩
    · simp only [Part.raise_tracker, Part.birthAt_eq, Part.setHide]; rfl
    · simp only [Part.raise_tracker, Part.birthAt_eq, Part.setHide, ht]
    · rw [Part.raise_outgoing _ _ _ (by simpa using hroom), Part.birthAt_recorder, Part.birthAt_rowIndex]

end Sys2Proof.Machine

/-! ## Insertion by an order -/

namespace Sys2Proof.Machine

section Sorting

variable {α : Type} (le : α → α → Bool)

theorem insertBy_perm (x : α) (l : List α) : (insertBy le x l).Perm (x :: l) := by
  induction l with
  | nil => exact .refl _
  | cons y l ih =>
    unfold insertBy
    split
    · exact (ih.cons y).trans (.swap x y l)
    · exact .refl _

theorem sortBy_perm (l : List α) : (sortBy le l).Perm l := by
  have hfold : ∀ (l acc : List α), (l.foldl (fun acc x => insertBy le x acc) acc).Perm (l ++ acc) := by
    intro l
    induction l with
    | nil => exact fun _ => .refl _
    | cons x l ih => exact fun acc => (ih _).trans (((insertBy_perm le x acc).append_left l).trans List.perm_middle)
  exact (hfold l []).trans (.of_eq (List.append_nil l))

/-- The order ranks the elements that `P` picks: any two of them, and transitively. -/
structure Ranks (P : α → Prop) : Prop where
  total : ∀ a b, P a → P b → le a b = true ∨ le b a = true
  trans : ∀ a b c, P a → P b → P c → le a b = true → le b c = true → le a c = true

variable {le} {P : α → Prop} (h : Ranks le P)
include h

theorem insertBy_pairwise {x : α} {l : List α} (hx : P x) (hl : ∀ y ∈ l, P y) (hs : l.Pairwise (fun a b => le a b = true)) :
    (insertBy le x l).Pairwise (fun a b => le a b = true) := by
  induction l with
  | nil => exact List.pairwise_singleton _ _
  | cons y l ih =>
    obtain ⟨hy, hl⟩ := List.forall_mem_cons.1 hl
    obtain ⟨hfirst, hrest⟩ := List.pairwise_cons.1 hs
    unfold insertBy
    split
    · next hyx =>
      refine List.pairwise_cons.2 ⟨fun z hz => ?_, ih hl hrest⟩
      rcases List.mem_cons.1 ((insertBy_perm le x l).mem_iff.1 hz) with rfl | hz
      · exact hyx
      · exact hfirst z hz
    · next hyx =>
      have hxy : le x y = true := (h.total x y hx hy).resolve_right hyx
      refine List.pairwise_cons.2 ⟨fun z hz => ?_, hs⟩
      rcases List.mem_cons.1 hz with rfl | hz
      · exact hxy
      · exact h.trans x y z hx hy (hl z hz) hxy (hfirst z hz)

/-- Sorting puts the elements in the order. -/
theorem sortBy_pairwise {l : List α} (hl : ∀ y ∈ l, P y) : (sortBy le l).Pairwise (fun a b => le a b = true) := by
  have hfold : ∀ (l acc : List α), (∀ y ∈ l, P y) → (∀ y ∈ acc, P y) → acc.Pairwise (fun a b => le a b = true) →
      (l.foldl (fun acc x => insertBy le x acc) acc).Pairwise (fun a b => le a b = true) := by
    intro l
    induction l with
    | nil => exact fun _ _ _ hs => hs
    | cons x l ih =>
      intro acc hl hacc hs
      obtain ⟨hx, hl⟩ := List.forall_mem_cons.1 hl
      refine ih _ hl (fun y hy => ?_) (insertBy_pairwise h hx hacc hs)
      rcases List.mem_cons.1 ((insertBy_perm le x acc).mem_iff.1 hy) with rfl | hy
      · exact hx
      · exact hacc y hy
  exact hfold l [] hl (by simp) .nil

end Sorting

end Sys2Proof.Machine

/-! ## Merges -/

namespace Sys2Proof.Machine

/-! ### An absorption (R34 to R37, R62) -/

/-- What the survivor is after an owner's hide is taken in: SPILL_JOINED when it is the spill account's (R36). -/
def Hide.takenIn (x y : Hide) (o : Owner) (threshold : Nat) : Hide :=
  { x.absorb y threshold with
    flags.spillJoined := x.flags.spillJoined || y.flags.spillJoined || decide (o = .spill) }

/-- The holes of an absorbed entry are the survivor's (R62); the spill account has none. -/
def Holes.reown (holes : Holes) (b : Nat) : Owner → Holes
  | .entry a => { holes with
      table := holes.table.map (Option.map (fun h => if h.owner = a then { h with owner := b } else h)) }
  | .spill => holes

section Absorb

variable {p : Part} {b : Nat} {o : Owner} {x y : Hide}

/-- An absorption, but for the place that it frees. -/
def Part.takenIn (p : Part) (b : Nat) (o : Owner) (z : Hide) : Part :=
  { p.setHide (.entry b) (some z) with
    tracker.prev := repoint o (.entry b) p.tracker.prev
    tracker.cur := repoint o (.entry b) p.tracker.cur
    holes := p.holes.reown b o }

theorem Part.takenIn_hideOf (z : Hide) (c : Owner) :
    (p.takenIn b o z).hideOf c = (p.setHide (.entry b) (some z)).hideOf c := by cases c <;> rfl

variable (hx : p.hideOf (.entry b) = some x) (hy : p.hideOf o = some y)
include hx hy

theorem Part.absorbOwner_eq : p.absorbOwner b o =
    (p.takenIn b o (x.takenIn y o p.setup.guarded.doubleThreshold)).setHide o none := by
  unfold Part.absorbOwner
  rw [hx, hy]
  cases o with
  | spill => simp only [Hide.takenIn, decide_true, Bool.or_true]; rfl
  | entry i => simp only [Hide.takenIn, reduceCtorEq, decide_false, Bool.or_false]; rfl

/-- The hides after an absorption: the absorbed place is free, the survivor's hide has taken it in. -/
theorem Part.absorbOwner_hideOf (ho : o ≠ .entry b) (c : Owner) : (p.absorbOwner b o).hideOf c =
    if c = o then none
    else if c = .entry b then some (x.takenIn y o p.setup.guarded.doubleThreshold)
    else p.hideOf c := by
  have hset : ∀ z c, (p.takenIn b o z).hideOf c = if c = .entry b then some z else p.hideOf c := by
    intro z c
    rw [Part.takenIn_hideOf, Part.setHide_hideOf _ _ _ _ (by simp [hx])]
  rw [Part.absorbOwner_eq hx hy, Part.setHide_hideOf _ _ _ _ (by rw [hset, if_neg ho, hy]; rfl), hset]

theorem Part.absorbOwner_prev : (p.absorbOwner b o).tracker.prev = repoint o (.entry b) p.tracker.prev := by
  rw [Part.absorbOwner_eq hx hy]; cases o <;> rfl

theorem Part.absorbOwner_cur : (p.absorbOwner b o).tracker.cur = repoint o (.entry b) p.tracker.cur := by
  rw [Part.absorbOwner_eq hx hy]; cases o <;> rfl

theorem Part.absorbOwner_holes : (p.absorbOwner b o).holes = p.holes.reown b o := by
  rw [Part.absorbOwner_eq hx hy]; cases o <;> rfl

theorem Part.absorbOwner_counters : (p.absorbOwner b o).tracker.closed = p.tracker.closed ∧
    (p.absorbOwner b o).tracker.counter = p.tracker.counter := by
  rw [Part.absorbOwner_eq hx hy]; cases o <;> exact ⟨rfl, rfl⟩

end Absorb

theorem mergeSite_none_right (a : Option Site) : mergeSite a none = a := by cases a <;> rfl

/-- The later of two sites, the survivor's on equal rows (R34). -/
theorem mergeSite_some (u v : Site) : mergeSite (some u) (some v) =
    if u.row ≠ v.row ∧ (v.row - u.row).toNat < 2147483648 then some v else some u := by
  simp only [mergeSite, before_iff]

/-! ### The survivor of an owner set (R33) -/

/-- A choice between two, made one after another, ends in the one that is chosen against every other. -/
theorem foldl_choice {α : Type} {f : α → α → α} {b : α} (hf : ∀ a c, f a c = a ∨ f a c = c) (l : List α) (e : α)
    (hbeats : ∀ a ∈ e :: l, a ≠ b → f a b = b ∧ f b a = b) (hb : b ∈ e :: l) : l.foldl f e = b := by
  induction l generalizing e with
  | nil => exact (List.mem_singleton.1 hb).symm
  | cons c l ih =>
    have hkept : ∀ a ∈ f e c :: l, a ∈ e :: c :: l := by
      intro a ha
      rcases List.mem_cons.1 ha with rfl | ha
      · rcases hf e c with h | h <;> simp [h]
      · simp [ha]
    have hchosen : b ∈ f e c :: l := by
      rcases List.mem_cons.1 hb with rfl | hb
      · by_cases hc : c = b
        · subst hc; rcases hf c c with h | h <;> simp [h]
        · simp [(hbeats c (by simp) hc).2]
      · rcases List.mem_cons.1 hb with rfl | hb
        · by_cases he : e = b
          · subst he; rcases hf e e with h | h <;> simp [h]
          · simp [(hbeats e (by simp) he).1]
        · exact List.mem_cons_of_mem _ hb
    exact ih (f e c) (fun a ha => hbeats a (hkept a ha)) hchosen

/-- Of two different rows at most one lies before the other. -/
theorem not_before_of_before {a b : Word} (h : before a b = true) : ¬ before b a = true := by
  rw [before_iff] at h ⊢
  obtain ⟨hne, hlt⟩ := h
  rintro ⟨-, hgt⟩
  exact hne (by bv_omega)

section Survivor

variable (p : Part)

theorem Part.survivorOf_mem (a c : Owner) : p.survivorOf a c = a ∨ p.survivorOf a c = c := by
  unfold Part.survivorOf
  split
  · exact .inr rfl
  · split
    · exact .inr rfl
    · exact .inl rfl

/-- Owner `b` survives a merge with `a`: an earlier first row, or the same one and a leftmost segment further left (R33). -/
def Part.Survives (b a : Owner) : Prop :=
  before (p.firstRowOf b) (p.firstRowOf a) = true ∨
    (p.firstRowOf b = p.firstRowOf a ∧ p.leftmost b < p.leftmost a)

variable {p} in
theorem Part.Survives.survivorOf {a b : Owner} (h : p.Survives b a) : p.survivorOf a b = b ∧ p.survivorOf b a = b := by
  unfold Part.survivorOf
  rcases h with hrow | ⟨hrow, hleft⟩
  · have hne : p.firstRowOf b ≠ p.firstRowOf a := ((before_iff _ _).1 hrow).1
    exact ⟨if_pos hrow, by rw [if_neg (not_before_of_before hrow), if_neg (fun h => hne h.1)]⟩
  · have hsame : ∀ w : Word, ¬ before w w = true := fun w h => ((before_iff _ _).1 h).1 rfl
    rw [hrow]
    exact ⟨by rw [if_neg (hsame _), if_pos ⟨rfl, hleft⟩],
      by rw [if_neg (hsame _), if_neg (fun h => absurd h.2 (by omega))]⟩

/-- The entries a survivor absorbs, in the order in which it does (R33). -/
def Part.absorbed (b : Nat) (os : List Owner) : List Owner :=
  sortBy (fun a c => decide (p.leftmost a ≤ p.leftmost c)) ((entriesOf os).filter (fun o => decide (o ≠ .entry b)))

theorem Part.absorbed_perm (b : Nat) (os : List Owner) :
    (p.absorbed b os).Perm (os.filter (fun o => decide (o ≠ .spill) && decide (o ≠ .entry b))) := by
  refine (sortBy_perm _ _).trans (.of_eq ?_)
  rw [entriesOf, List.filter_filter]
  exact List.filter_congr (fun o _ => Bool.and_comm _ _)

theorem Part.absorbed_pairwise (b : Nat) (os : List Owner) :
    (p.absorbed b os).Pairwise (fun c d => p.leftmost c ≤ p.leftmost d) := by
  have hranks : Ranks (fun a c => decide (p.leftmost a ≤ p.leftmost c)) (fun _ => True) :=
    ⟨fun a c _ _ => by simpa using Nat.le_total _ _, fun a c d _ _ _ => by simpa using Nat.le_trans⟩
  exact (sortBy_pairwise hranks (fun _ _ => trivial)).imp of_decide_eq_true

/-- A merge into the entry that survives each of the others (R33, R36). -/
theorem Part.mergeOwners_of_survives {b : Nat} {os : List Owner} (hb : .entry b ∈ os)
    (h : ∀ o ∈ os, o ≠ .spill → o ≠ .entry b → p.Survives (.entry b) o) :
    p.mergeOwners os = (.entry b,
      (p.absorbed b os ++ (if Owner.spill ∈ os then [Owner.spill] else [])).foldl (fun p o => p.absorbOwner b o) p) := by
  have hmem : ∀ o, o ∈ entriesOf os ↔ o ∈ os ∧ o ≠ .spill := by simp [entriesOf]
  have hentry : .entry b ∈ entriesOf os := (hmem _).2 ⟨hb, by simp⟩
  unfold Part.mergeOwners
  cases he : entriesOf os with
  | nil => rw [he] at hentry; exact absurd hentry List.not_mem_nil
  | cons e es =>
    have hsurvivor : es.foldl p.survivorOf e = .entry b := by
      refine foldl_choice p.survivorOf_mem es e (fun a ha hne => ?_) (he ▸ hentry)
      obtain ⟨hos, hspill⟩ := (hmem a).1 (he.symm ▸ ha)
      exact (h a hos hspill hne).survivorOf
    dsimp only
    rw [hsurvivor, ← he]
    by_cases hs : Owner.spill ∈ os
    · simp [hs, Part.absorbed]
    · simp [hs, Part.absorbed]

end Survivor

/-- Settles O23: an absorption from `Part.absorbOwner_eq`, an owner set from the survivor's standing against each other entry. -/
theorem mergeOfTwoEntries : Obligations.MergeOfTwoEntries := by
  refine ⟨fun p b o x y ho hx hy => ?_, fun p b x os _ hb hx => ?_⟩
  · intro q repointed
    have hhides := Part.absorbOwner_hideOf hx hy ho
    refine ⟨by rw [hhides, if_pos rfl], fun c hc hcb => by rw [hhides, if_neg hc, if_neg hcb],
      ⟨x.takenIn y o p.setup.guarded.doubleThreshold, by rw [hhides, if_neg (Ne.symm ho), if_pos rfl], ?_⟩,
      Part.absorbOwner_prev hx hy, Part.absorbOwner_cur hx hy, fun a ha => ?_, fun hs => ?_,
      by simp [q], by simp [q], by simp [q], (Part.absorbOwner_counters hx hy).1, (Part.absorbOwner_counters hx hy).2⟩
    · refine ⟨rfl, rfl, ?_, rfl, rfl, rfl, rfl, rfl, rfl, rfl, rfl, rfl, rfl, rfl, rfl, rfl, rfl, rfl, rfl, rfl, rfl, rfl,
        fun h => ?_, fun h => ?_, fun u v hu hv => ?_⟩
      · simp only [Hide.takenIn, Hide.absorb, earlier, atOrBefore, decide_eq_true_eq]
      · simp only [Hide.takenIn, Hide.absorb, h]; rfl
      · simp only [Hide.takenIn, Hide.absorb, h, mergeSite_none_right]
      · simp only [Hide.takenIn, Hide.absorb, hu, hv, mergeSite_some]
    · rw [Part.absorbOwner_holes hx hy, ha]; rfl
    · rw [Part.absorbOwner_holes hx hy, hs]; rfl
  · intro left hbeats
    have hsurvives : ∀ o ∈ os, o ≠ .spill → o ≠ .entry b → p.Survives (.entry b) o := by
      intro o ho hspill hne
      obtain ⟨y, hy, hrow⟩ := hbeats o ho hspill hne
      have hbrow : p.firstRowOf (.entry b) = x.firstRow := by rw [Part.firstRowOf, hx]; rfl
      have horow : p.firstRowOf o = y.firstRow := by rw [Part.firstRowOf, hy]; rfl
      rw [Part.Survives, hbrow, horow, before_iff]
      exact hrow
    rw [p.mergeOwners_of_survives hb hsurvives]
    exact ⟨rfl, p.absorbed b os, p.absorbed_perm b os, p.absorbed_pairwise b os, rfl⟩

end Sys2Proof.Machine

/-! ## Breaching the holes of a hide that closes -/

namespace Sys2Proof.Machine

/-! ### A change of one owner's hide -/

theorem Part.modifyHide_hideOf (p : Part) (o c : Owner) (f : Hide → Hide) :
    (p.modifyHide o f).hideOf c = if c = o then (p.hideOf o).map f else p.hideOf c := by
  unfold Part.modifyHide
  cases ho : p.hideOf o with
  | none =>
    rw [Option.map_none, p.setHide_hideOf_self_none o ho]
    split
    · next hc => rw [hc, ho]
    · rfl
  | some h => rw [p.setHide_hideOf _ _ _ (by simp [ho])]

/-! ### Tables as lists of their entries -/

theorem tableGet_of_length_le {α : Type} {t : List (Option α)} {i : Nat} (h : t.length ≤ i) : tableGet t i = none := by
  simp [tableGet, List.getElem?_eq_none h]

theorem map_tableGet_range {α : Type} (t : List (Option α)) : (List.range t.length).map (tableGet t) = t := by
  refine List.ext_getElem (by simp) (fun i hi _ => ?_)
  have hlt : i < t.length := by simpa using hi
  simp [tableGet, hlt]

/-- Setting entries free one after another. -/
theorem foldl_set_none_getElem? {α : Type} (hs : List Nat) (t : List (Option α)) (i : Nat) :
    (hs.foldl (fun t h => t.set h none) t)[i]? = if i ∈ hs then t[i]?.map (fun _ => none) else t[i]? := by
  induction hs generalizing t with
  | nil => simp
  | cons h hs ih =>
    rw [List.foldl_cons, ih, List.getElem?_set']
    by_cases hi : h = i
    · subst hi; cases t[h]? <;> simp
    · simp [hi, Ne.symm hi]

/-! ### The holes an owner holds (R58, R63) -/

/-- A hole-table entry holds a hole of this owner. -/
def ownedBy (o : Owner) (x : Option Hole) : Bool := x.any (fun y => decide (o = .entry y.owner))

/-- The hide after so many of its holes are breached (R58). -/
def Hide.breached (h : Hide) (n : Nat) : Hide :=
  { h with holesBreached := if n = 0 then h.holesBreached else min 65535 (h.holesBreached + n) }

theorem Hide.breached_zero (h : Hide) : h.breached 0 = h := rfl

theorem Hide.addBreach_iterate (h : Hide) (n : Nat) : Hide.addBreach^[n] h = h.breached n := by
  induction n with
  | zero => rfl
  | succ n ih =>
    rw [Function.iterate_succ_apply', ih]
    simp only [Hide.addBreach, Hide.breached, satAdd, max16, Nat.succ_ne_zero, if_false]
    congr 1
    split <;> omega

/-- The runs that name none of some holes. -/
def runsWithout (hs : List Nat) (runs : List Run) : List Run := runs.filter (fun r => decide (r.hole ∉ hs))

theorem runsWithout_cons (h : Nat) (hs : List Nat) (runs : List Run) :
    runsWithout hs (runs.filter (fun r => decide (r.hole ≠ h))) = runsWithout (h :: hs) runs := by
  unfold runsWithout
  rw [List.filter_filter]
  refine List.filter_congr (fun r _ => ?_)
  simp only [List.mem_cons, not_or, Bool.decide_and]
  exact Bool.and_comm _ _

/-- The hole tracker with some holes breached (R58). -/
def Holes.without (holes : Holes) (hs : List Nat) : Holes :=
  { table := hs.foldl (fun t h => t.set h none) holes.table
    prevRuns := runsWithout hs holes.prevRuns
    curRuns := runsWithout hs holes.curRuns }

section Breach

variable {p : Part} {e : Nat}

theorem Part.holeOf_eq (p : Part) (e h : Nat) : p.holeOf e h = ownedBy (.entry e) (tableGet p.holes.table h) := by
  simp [Part.holeOf, ownedBy, eq_comm]

/-- A breach of a hole of entry `e` (R58). -/
theorem Part.breach_eq {h : Nat} (hown : p.holeOf e h = true) :
    p.breach h = ((p.modifyHide (.entry e) Hide.addBreach).removeRuns h).setHole h none := by
  obtain ⟨x, hx, howner⟩ := (Option.any_eq_true _ _).1 hown
  unfold Part.breach
  rw [hx, ← of_decide_eq_true howner]

theorem Part.breach_hideOf {h : Nat} (hown : p.holeOf e h = true) (c : Owner) : (p.breach h).hideOf c =
    if c = .entry e then (p.hideOf c).map Hide.addBreach else p.hideOf c := by
  rw [Part.breach_eq hown]
  refine Eq.trans ?_ ((p.modifyHide_hideOf (.entry e) c Hide.addBreach).trans ?_)
  · cases c <;> rfl
  · split
    · next hc => rw [hc]
    · rfl

theorem Part.breach_holes {h : Nat} (hown : p.holeOf e h = true) : (p.breach h).holes =
    { table := p.holes.table.set h none
      prevRuns := p.holes.prevRuns.filter (fun r => decide (r.hole ≠ h))
      curRuns := p.holes.curRuns.filter (fun r => decide (r.hole ≠ h)) } := by
  rw [Part.breach_eq hown]
  rfl

/-- Breaching different holes of one entry, one after another. -/
theorem Part.foldl_breach (hs : List Nat) (hnodup : hs.Nodup) (hown : ∀ h ∈ hs, p.holeOf e h = true) :
    (∀ c, (hs.foldl Part.breach p).hideOf c =
      if c = .entry e then (p.hideOf c).map (fun x => x.breached hs.length) else p.hideOf c) ∧
    (hs.foldl Part.breach p).holes = p.holes.without hs := by
  induction hs generalizing p with
  | nil =>
    refine ⟨fun c => ?_, by simp [Holes.without, runsWithout]⟩
    simp [Hide.breached_zero]
  | cons h hs ih =>
    obtain ⟨hfresh, hnodup⟩ := List.nodup_cons.1 hnodup
    obtain ⟨hh, hown⟩ := List.forall_mem_cons.1 hown
    have hrest : ∀ x ∈ hs, (p.breach h).holeOf e x = true := by
      intro x hx
      have hne : h ≠ x := fun hc => hfresh (hc ▸ hx)
      rw [Part.holeOf_eq, Part.breach_holes hh, tableGet_set, if_neg (fun hc => hne hc.1), ← Part.holeOf_eq]
      exact hown x hx
    obtain ⟨hhides, hholes⟩ := ih hnodup hrest
    refine ⟨fun c => ?_, ?_⟩
    · rw [List.foldl_cons, hhides, Part.breach_hideOf hh]
      split
      · rw [Option.map_map]
        refine congrArg (fun f => (p.hideOf c).map f) (funext fun x => ?_)
        show (Hide.addBreach x).breached hs.length = x.breached (hs.length + 1)
        rw [← Hide.addBreach_iterate, ← Hide.addBreach_iterate, Function.iterate_succ_apply]
      · rfl
    · rw [List.foldl_cons, hholes, Part.breach_holes hh]
      simp only [Holes.without, runsWithout_cons, List.foldl_cons]

end Breach

section BreachOwned

variable {p : Part} (hlen : p.holes.table.length = 32)

/-- The holes of an entry, in ascending index. -/
def Part.holesOf (p : Part) (e : Nat) : List Nat := (List.range 32).filter (p.holeOf e)

include hlen

theorem Part.mem_holesOf (e h : Nat) : h ∈ p.holesOf e ↔ ownedBy (.entry e) (tableGet p.holes.table h) = true := by
  rw [Part.holesOf, List.mem_filter, List.mem_range, Part.holeOf_eq]
  refine ⟨And.right, fun hown => ⟨?_, hown⟩⟩
  by_contra hge
  rw [tableGet_of_length_le (by omega)] at hown
  exact absurd hown (by simp [ownedBy])

theorem Part.holesOf_length (e : Nat) : (p.holesOf e).length = (p.holes.table.filter (ownedBy (.entry e))).length := by
  conv_rhs => rw [← map_tableGet_range p.holes.table, hlen, List.filter_map, List.length_map]
  exact congrArg List.length (List.filter_congr fun h _ => p.holeOf_eq e h)

/-- The hole tracker without an owner's holes: its entries are FREE, their runs gone. -/
theorem Part.without_holesOf (e : Nat) : p.holes.without (p.holesOf e) =
    { table := p.holes.table.map (fun x => if ownedBy (.entry e) x then none else x)
      prevRuns := p.holes.prevRuns.filter (fun r => !ownedBy (.entry e) (p.holes.table.getD r.hole none))
      curRuns := p.holes.curRuns.filter (fun r => !ownedBy (.entry e) (p.holes.table.getD r.hole none)) } := by
  have hruns : ∀ runs : List Run, runsWithout (p.holesOf e) runs =
      runs.filter (fun r => !ownedBy (.entry e) (p.holes.table.getD r.hole none)) := by
    intro runs
    refine List.filter_congr (fun r _ => ?_)
    rw [Bool.eq_iff_iff, decide_eq_true_iff, Part.mem_holesOf hlen, Bool.not_eq_true', Bool.not_eq_true]
    rfl
  have htable : (p.holesOf e).foldl (fun t h => t.set h none) p.holes.table =
      p.holes.table.map (fun x => if ownedBy (.entry e) x then none else x) := by
    refine List.ext_getElem? (fun i => ?_)
    rw [foldl_set_none_getElem?, List.getElem?_map]
    simp only [Part.mem_holesOf hlen, tableGet, List.getD_eq_getElem?_getD]
    cases p.holes.table[i]? with
    | none => simp
    | some x => by_cases hx : ownedBy (.entry e) x = true <;> simp [hx]
  simp only [Holes.without, hruns, htable]

/-- The breaching of every hole an owner still holds (R63). -/
theorem Part.breachOwned_spec (o : Owner) :
    (∀ c, (p.breachOwned o).hideOf c = if c = o
      then (p.hideOf c).map (fun x => x.breached (p.holes.table.filter (ownedBy o)).length) else p.hideOf c) ∧
    (p.breachOwned o).holes =
      { table := p.holes.table.map (fun x => if ownedBy o x then none else x)
        prevRuns := p.holes.prevRuns.filter (fun r => !ownedBy o (p.holes.table.getD r.hole none))
        curRuns := p.holes.curRuns.filter (fun r => !ownedBy o (p.holes.table.getD r.hole none)) } := by
  cases o with
  | spill =>
    have hnone : ownedBy .spill = fun _ => false := funext (fun x => by cases x <;> simp [ownedBy])
    simp [hnone, Part.breachOwned, Hide.breached_zero]
  | entry e =>
    have hown : ∀ h ∈ p.holesOf e, p.holeOf e h = true := fun h hh => (List.mem_filter.1 hh).2
    have hbreach := Part.foldl_breach (p.holesOf e) (List.nodup_range.filter _) hown
    rw [Part.without_holesOf hlen, Part.holesOf_length hlen] at hbreach
    exact hbreach

end BreachOwned

end Sys2Proof.Machine

/-! ## What the close of a hide does to records, marks, lots and jobs -/

namespace Sys2Proof.Machine

section CloseEffects

variable (p : Part)

/-! ### The waiting records stay in front (R187)

Nothing but a LOT record displaces a record that waits. -/

theorem Part.emit_prefix (r : Record) (hr : r.isLot = false) : p.recorder.outgoing <+: (p.emit r).recorder.outgoing := by
  by_cases hlt : p.recorder.outgoing.length < 8
  · rw [Part.emit_of_lt p r hlt]; exact List.prefix_append _ _
  · rw [Part.emit, if_neg hlt, hr, if_neg (by simp), Part.dropRecord_recorder]

theorem Part.resolveMark_prefix (m : Mark) : p.recorder.outgoing <+: (p.resolveMark m).recorder.outgoing := by
  have hrecord : ∀ w d row b a l, p.recorder.outgoing <+: (p.markRecord w d row b a l).recorder.outgoing := by
    intro w d row b a l
    refine List.IsPrefix.trans ?_ (Part.emit_prefix _ _ rfl)
    simp
  unfold Part.resolveMark
  dsimp only
  split <;> exact hrecord _ _ _ _ _ _

theorem Part.reexamine_prefix (ms : List Mark) : p.recorder.outgoing <+: (p.reexamine ms).recorder.outgoing := by
  induction ms generalizing p with
  | nil => exact List.prefix_refl _
  | cons m ms ih =>
    unfold Part.reexamine
    split
    · exact ih { p with lots.markQueue := p.lots.markQueue ++ [m] }
    · exact (p.resolveMark_prefix m).trans (ih _)

theorem Part.reexamineMarks_prefix : p.recorder.outgoing <+: p.reexamineMarks.recorder.outgoing :=
  Part.reexamine_prefix { p with lots.markQueue := [] } p.lots.markQueue

/-! ### The recent-hides list (R105) -/

theorem Part.flagDropped_recent (id : Half) : (p.flagDropped id).lots.recent = p.lots.recent := by
  unfold Part.flagDropped; split <;> rfl

theorem Part.dropRecord_recent (r : Record) : (p.dropRecord r).lots.recent = p.lots.recent := by
  unfold Part.dropRecord; cases r <;> simp [Part.flagDropped_recent]

theorem Part.emit_recent (r : Record) : (p.emit r).lots.recent = p.lots.recent := by
  unfold Part.emit; (repeat' split) <;> simp [Part.dropRecord_recent]

theorem Part.modifyLot_recent (id : Half) (f : Lot → Lot) : (p.modifyLot id f).lots.recent = p.lots.recent := by
  unfold Part.modifyLot; split <;> rfl

theorem Part.release_recent (i : HideInfo) (o : StampOutcome) (x : Option Word) :
    (p.release i o x).lots.recent = p.lots.recent := by
  rw [Part.release, Part.emit_recent, Part.modifyLot_recent]

theorem Part.reexamine_recent (ms : List Mark) : (p.reexamine ms).lots.recent = p.lots.recent := by
  induction ms generalizing p with
  | nil => rfl
  | cons m ms ih =>
    unfold Part.reexamine
    split
    · exact ih { p with lots.markQueue := p.lots.markQueue ++ [m] }
    · rw [ih]
      unfold Part.resolveMark Part.markRecord
      dsimp only
      split <;> rw [Part.emit_recent, Part.modifyLot_recent]

theorem Part.reexamineMarks_recent : p.reexamineMarks.lots.recent = p.lots.recent :=
  Part.reexamine_recent { p with lots.markQueue := [] } p.lots.markQueue

/-! ### The marks that wait on (R104) -/

theorem Part.hasOpenCandidate_congr {p q : Part} (h : q.tracker.table = p.tracker.table) (t : Word) :
    q.hasOpenCandidate t = p.hasOpenCandidate t := by unfold Part.hasOpenCandidate; rw [h]

theorem Part.reexamine_waiting (ms : List Mark) (h : ∀ m ∈ p.lots.markQueue, p.hasOpenCandidate m.target = true) :
    ∀ m ∈ (p.reexamine ms).lots.markQueue, p.hasOpenCandidate m.target = true := by
  induction ms generalizing p with
  | nil => exact h
  | cons m ms ih =>
    unfold Part.reexamine
    split
    · next hm =>
      refine ih { p with lots.markQueue := p.lots.markQueue ++ [m] } (fun x hx => ?_)
      rcases List.mem_append.1 hx with hx | hx
      · exact h x hx
      · rw [List.mem_singleton.1 hx]; exact hm
    · have hsame : ∀ t, (p.resolveMark m).hasOpenCandidate t = p.hasOpenCandidate t :=
        Part.hasOpenCandidate_congr (by simp)
      simp only [← hsame]
      refine ih (p.resolveMark m) (fun x hx => ?_)
      rw [Part.resolveMark_markQueue] at hx
      rw [hsame]
      exact h x hx

theorem Part.reexamineMarks_waiting : ∀ m ∈ p.reexamineMarks.lots.markQueue, p.hasOpenCandidate m.target = true :=
  Part.reexamine_waiting { p with lots.markQueue := [] } p.lots.markQueue (by simp)

/-! ### The closing test of a hide that is still open (R89) -/

variable {p} in
/-- A lot that something still holds does not close. -/
theorem Part.closingTestFor_of_held {id : Half} (h : p.lotHeld id = true) : p.closingTestFor id = p := by
  unfold Part.closingTestFor
  split
  · next l hl =>
    split
    · next hid =>
      have hkept : p.closeLotIfEmpty = p := by
        unfold Part.closeLotIfEmpty
        rw [hl]
        exact if_pos (hid ▸ h)
      unfold Part.closingTest
      dsimp only
      rw [hkept, hl]
      simp
    · rfl
  · rfl

variable {p} in
/-- The record of a hide that is still in its place: no lot closes at it. -/
theorem Part.leaveUnstamped_of_open {info : HideInfo} {o : Owner} {h : Hide} (hh : p.hideOf o = some h)
    (hlot : info.lot = h.lot) (r : UnstampedReason) : p.leaveUnstamped info r = p.release info (.unstamped r) none := by
  refine Part.closingTestFor_of_held ?_
  have hopen : h ∈ p.openHides := (p.mem_openHides h).2 ⟨o, hh⟩
  have hheld : p.lotHeld info.lot = true := by
    rw [Part.lotHeld, Bool.or_eq_true, List.any_eq_true]
    exact .inl ⟨h, hopen, decide_eq_true hlot.symm⟩
  simpa [Part.lotHeld, Part.openHides, Part.jobs] using hheld

/-! ### The job of a hide that closes (R114) -/

theorem Part.nameJob_jobs : p.nameJob.jobs = p.jobs := by
  unfold Part.nameJob
  split
  · next j rest hc hw =>
    split
    · simp [Part.jobs, hc, hw]
    · rfl
  · rfl

theorem Part.startJob_infos : p.startJob.jobs.map Job.info = p.jobs.map Job.info := by
  unfold Part.startJob
  split
  · next j hj =>
    split
    · simp [Part.jobs, Part.setJobState, hj]
    · rfl
  · rfl

/-- Naming and starting a job leaves every pending record in the queue, in order. -/
theorem Part.nameAndStart_infos : p.nameAndStart.jobs.map Job.info = p.jobs.map Job.info := by
  rw [Part.nameAndStart, Part.startJob_infos, Part.nameJob_jobs]

theorem Part.makeJob_mem (info : HideInfo) (x : Site) (y : Symbols) : ∃ j ∈ (p.makeJob info x y).jobs, j.info = info := by
  rw [← List.mem_map, Part.makeJob, Part.nameAndStart_infos]
  refine List.mem_map.2 ⟨_, List.mem_append_right _ ((insertBy_perm _ _ _).mem_iff.2 (List.mem_cons_self ..)), rfl⟩

/-! ### What the footage unit makes of a hide that is still in its place -/

variable {p} in
/-- A hide handed over leaves its record or becomes a job (R68, R79, R83). -/
theorem Part.takeHide_cases {o : Owner} {h z : Hide} (hh : p.hideOf o = some h) (hlot : z.lot = h.lot) (src : Source)
    (c : CloseCause) :
    (∃ r, (if c = .restart then some .truncated else p.unstampedReason (p.infoOf src z)) = some r ∧
      p.takeHide src c z = p.release (p.infoOf src z) (.unstamped r) none) ∨
    (c ≠ .restart ∧ p.unstampedReason (p.infoOf src z) = none ∧
      ∃ x y, p.takeHide src c z = p.makeJob (p.infoOf src z) x y) := by
  have hleave := Part.leaveUnstamped_of_open (info := p.infoOf src z) hh hlot
  by_cases hc : c = .restart
  · rw [if_pos hc, hc, Part.takeHide_restart]
    exact .inl ⟨_, rfl, hleave _⟩
  · rw [if_neg hc, Part.takeHide_row _ _ _ hc]
    cases hr : p.unstampedReason (p.infoOf src z) with
    | some r => exact .inl ⟨r, rfl, by rw [Part.handOn_of_some hr, hleave]⟩
    | none =>
      obtain ⟨x, y, -, -, hjob⟩ := Part.handOn_makes_job src z hr
      exact .inr ⟨hc, rfl, x, y, hjob⟩

theorem Part.makeJob_recent (info : HideInfo) (x : Site) (y : Symbols) :
    (p.makeJob info x y).lots.recent = p.lots.recent := by simp

variable {p} in
theorem Part.takeHide_recent {o : Owner} {h z : Hide} (hh : p.hideOf o = some h) (hlot : z.lot = h.lot) (src : Source)
    (c : CloseCause) : (p.takeHide src c z).lots.recent = p.lots.recent := by
  rcases Part.takeHide_cases hh hlot src c with ⟨r, -, e⟩ | ⟨-, -, x, y, e⟩
  · rw [e, Part.release_recent]
  · rw [e, Part.makeJob_recent]

end CloseEffects

end Sys2Proof.Machine

/-! ## The close of a hide, and the order of closes -/

namespace Sys2Proof.Machine

/-! ### The close, clause by clause (R42 to R46, R63, R104, R105) -/

/-- The hide as it is handed over: its holes breached, and marked TRUNCATED unless its row closes it. -/
def Part.closingHide (p : Part) (c : CloseCause) (o : Owner) (h : Hide) : Hide :=
  c.marked (h.breached (p.holes.table.filter (ownedBy o)).length)

theorem CloseCause.marked_eq (c : CloseCause) (h : Hide) :
    c.marked h = { h with flags.truncated := h.flags.truncated || decide (c ≠ .row) } := by
  cases c <;> simp [CloseCause.marked]

theorem Part.closingHide_lot (p : Part) (c : CloseCause) (o : Owner) (h : Hide) :
    (p.closingHide c o h).lot = (h.breached (p.holes.table.filter (ownedBy o)).length).lot := by
  rw [Part.closingHide, CloseCause.marked_eq]

/-- The recent-hides list after the close of an owner's hide (R105): a BELT hide joins it, a spill hide does not. -/
def Owner.recentAfter (o : Owner) (z : RecentHide) (l : List RecentHide) : List RecentHide :=
  match o with
  | .entry _ => (if 16 ≤ l.length then l.tail else l) ++ [z]
  | .spill => l

theorem Part.noteClosed_recent (p : Part) (o : Owner) (z : Hide) : (p.noteClosed o z).lots.recent =
    o.recentAfter { number := z.number, lot := z.lot, firstRow := z.firstRow, lastRow := z.lastRow } p.lots.recent := by
  cases o with
  | spill => rfl
  | entry i => simp only [Part.noteClosed, Part.addRecent, Owner.recentAfter]; split <;> rfl

theorem Owner.source_eq (o : Owner) : o.source = if o = .spill then .spill else .belt := by cases o <;> rfl

/-- The record fields read the settings in force only. -/
theorem Part.infoOf_congr {p q : Part} (hs : q.setup = p.setup) (src : Source) (h : Hide) :
    q.infoOf src h = p.infoOf src h := by
  unfold Part.infoOf; rw [hs]

theorem Part.breachOwned_unstampedReason (p : Part) (o : Owner) (info : HideInfo) :
    (p.breachOwned o).unstampedReason info = p.unstampedReason info := by
  simp [Part.unstampedReason, Part.jobs]

section Close

variable {p : Part} {o : Owner} {h : Hide} (c : CloseCause) (hh : p.hideOf o = some h) (hlen : p.holes.table.length = 32)

/-- The part when the marks are looked at again: the hide is handed over, its place is free, it is among the recent ones. -/
def Part.beforeMarks (p : Part) (c : CloseCause) (o : Owner) (z : Hide) : Part :=
  (((p.breachOwned o).takeHide o.source c z).setHide o none).noteClosed o z

include hh hlen

theorem Part.breachOwned_hideOf_self : (p.breachOwned o).hideOf o =
    some (h.breached (p.holes.table.filter (ownedBy o)).length) := by
  rw [(Part.breachOwned_spec hlen o).1, if_pos rfl, hh, Option.map_some]

theorem Part.closeHide_eq : p.closeHide c o = (p.beforeMarks c o (p.closingHide c o h)).reexamineMarks.countClosed :=
  Part.closeHide_of_some c (Part.breachOwned_hideOf_self hh hlen)

theorem Part.closeHide_hideOf (x : Owner) : (p.closeHide c o).hideOf x = if x = o then none else p.hideOf x := by
  have hbreached := Part.breachOwned_hideOf_self hh hlen
  have htracker : (p.closeHide c o).hideOf x = ((p.breachOwned o).setHide o none).hideOf x := by
    cases x <;> simp [Part.hideOf, Part.closeHide_tracker c (Option.isSome_iff_exists.2 ⟨h, hh⟩)]
  rw [htracker, Part.setHide_hideOf _ _ _ _ (by rw [hbreached]; rfl), (Part.breachOwned_spec hlen o).1]
  split <;> rfl

theorem Part.closeHide_holes : (p.closeHide c o).holes =
    { table := p.holes.table.map (fun x => if ownedBy o x then none else x)
      prevRuns := p.holes.prevRuns.filter (fun r => !ownedBy o (p.holes.table.getD r.hole none))
      curRuns := p.holes.curRuns.filter (fun r => !ownedBy o (p.holes.table.getD r.hole none)) } := by
  rw [Part.closeHide_eq c hh hlen, ← (Part.breachOwned_spec hlen o).2]
  simp [Part.countClosed, Part.beforeMarks]

theorem Part.wClosed_mem_closeHide_dirty : wClosed ∈ (p.closeHide c o).dirty := by
  rw [Part.closeHide_eq c hh hlen]
  exact (mem_insertRising _ _ _).2 (.inl rfl)

theorem Part.closeHide_recent : (p.closeHide c o).lots.recent =
    o.recentAfter { number := h.number, lot := h.lot, firstRow := h.firstRow, lastRow := h.lastRow } p.lots.recent := by
  have hlot := p.closingHide_lot c o h
  have hmarks : (p.closeHide c o).lots.recent = (p.beforeMarks c o (p.closingHide c o h)).lots.recent := by
    rw [Part.closeHide_eq c hh hlen]
    exact Part.reexamineMarks_recent _
  rw [hmarks, Part.beforeMarks, Part.noteClosed_recent, Part.setHide_lots,
    Part.takeHide_recent (Part.breachOwned_hideOf_self hh hlen) hlot, Part.breachOwned_lots, Part.closingHide,
    CloseCause.marked_eq]
  rfl

/-- R104: a mark that waits on has an open candidate left. -/
theorem Part.closeHide_waiting : ∀ m ∈ (p.closeHide c o).lots.markQueue, (p.closeHide c o).hasOpenCandidate m.target = true := by
  rw [Part.closeHide_eq c hh hlen]
  intro m hm
  have hcandidate := Part.reexamineMarks_waiting _ m hm
  rw [← hcandidate]
  exact Part.hasOpenCandidate_congr (congrArg Tracker.table (Part.reexamineMarks_tracker _)) _

/-- The record of the hand-over, if it makes one, waits in the queue behind those that waited. -/
theorem Part.closeHide_outgoing {r : UnstampedReason} (hroom : p.recorder.outgoing.length < 8)
    (hr : (if c = .restart then some .truncated else p.unstampedReason (p.infoOf o.source (p.closingHide c o h))) = some r) :
    (p.recorder.outgoing ++ [.hide (p.infoOf o.source (p.closingHide c o h)) (.unstamped r) none]) <+:
      (p.closeHide c o).recorder.outgoing := by
  have hlot := p.closingHide_lot c o h
  have hinfo := Part.infoOf_congr (p.breachOwned_setup o) o.source (p.closingHide c o h)
  have hrecord : (p.beforeMarks c o (p.closingHide c o h)).recorder.outgoing =
      p.recorder.outgoing ++ [.hide (p.infoOf o.source (p.closingHide c o h)) (.unstamped r) none] := by
    have htaken := Part.takeHide_cases (Part.breachOwned_hideOf_self hh hlen) hlot o.source c
    simp only [Part.breachOwned_unstampedReason, hinfo] at htaken
    rcases htaken with ⟨r', hr', e⟩ | ⟨hc, hnone, -⟩
    · have hsame : r' = r := Option.some.inj (hr'.symm.trans hr)
      rw [Part.beforeMarks, Part.noteClosed_recorder, Part.setHide_recorder, e, hsame,
        Part.release_outgoing _ _ _ (by simpa using hroom), Part.breachOwned_recorder]
    · rw [if_neg hc, hnone] at hr
      exact absurd hr (by simp)
  rw [Part.closeHide_eq c hh hlen, ← hrecord]
  exact Part.reexamineMarks_prefix _

/-- A hide that no check refuses leaves its place for a job (R114). -/
theorem Part.closeHide_job (hc : c ≠ .restart)
    (hr : p.unstampedReason (p.infoOf o.source (p.closingHide c o h)) = none) :
    ∃ j ∈ (p.closeHide c o).jobs, j.info = p.infoOf o.source (p.closingHide c o h) := by
  have hinfo := Part.infoOf_congr (p.breachOwned_setup o) o.source (p.closingHide c o h)
  have hjobs : (p.closeHide c o).jobs = ((p.breachOwned o).takeHide o.source c (p.closingHide c o h)).jobs := by
    rw [Part.closeHide_eq c hh hlen]
    simp [Part.jobs, Part.countClosed, Part.beforeMarks]
  obtain ⟨x, y, -, -, hjob⟩ := Part.handOn_makes_job (p := p.breachOwned o) o.source (p.closingHide c o h)
    (by rw [Part.breachOwned_unstampedReason, hinfo]; exact hr)
  rw [hjobs, Part.takeHide_row _ _ _ hc, hjob, ← hinfo]
  exact Part.makeJob_mem _ _ _ _

end Close

/-! ### The order of closes (R42) -/

/-- Rows that lie less than half the circle back are in the order of their distance. -/
theorem before_iff_farther {r a b : Word} (ha : (r - a).toNat < 2147483648) (hb : (r - b).toNat < 2147483648) :
    before a b = true ↔ (r - b).toNat < (r - a).toNat := by
  rw [before_iff]
  constructor
  · rintro ⟨hne, hlt⟩
    bv_omega
  · intro hlt
    exact ⟨by rintro rfl; exact absurd hlt (Nat.lt_irrefl _), by bv_omega⟩

/-- Hide `x` closes no later than `y`: an earlier first row as seen from row `r`, or the same one and a number not greater. -/
def ClosesFirst (r : Word) (x y : Hide) : Prop :=
  (r - y.firstRow).toNat < (r - x.firstRow).toNat ∨ (x.firstRow = y.firstRow ∧ x.number ≤ y.number)

section CloseOrder

variable (p : Part)

theorem Part.mem_toClose (o : Owner) : o ∈ p.toClose ↔ (p.hideOf o).isSome = true ∧ ∀ s ∈ p.tracker.cur, s.owner ≠ o := by
  rw [Part.toClose, (p.closeOrder_perm _).mem_iff, List.mem_filter, Part.mem_openOwners]
  simp

theorem Part.toClose_nodup : p.toClose.Nodup := (p.closeOrder_perm _).nodup_iff.2 (p.openOwners_nodup.filter _)

theorem Part.mem_closeOrder_openOwners (o : Owner) : o ∈ p.closeOrder p.openOwners ↔ (p.hideOf o).isSome = true :=
  (p.closeOrder_perm _).mem_iff.trans (p.mem_openOwners o)

variable {p} (hnear : ∀ h ∈ p.openHides, (p.tracker.rowIndex - h.firstRow).toNat < 2147483648)
include hnear

theorem Part.closesBefore_iff {a b : Owner} {x y : Hide} (hx : p.hideOf a = some x) (hy : p.hideOf b = some y) :
    p.closesBefore a b = true ↔ ClosesFirst p.tracker.rowIndex x y := by
  have hxnear := hnear x ((p.mem_openHides x).2 ⟨a, hx⟩)
  have hynear := hnear y ((p.mem_openHides y).2 ⟨b, hy⟩)
  simp only [Part.closesBefore, hx, hy, Bool.or_eq_true, Bool.and_eq_true, decide_eq_true_eq, before_iff_farther hxnear hynear]
  rfl

/-- While every first row lies less than half the circle back the close order ranks the open owners. -/
theorem Part.closesBefore_ranks : Ranks p.closesBefore (fun o => (p.hideOf o).isSome = true) := by
  refine ⟨fun a b ha hb => ?_, fun a b c ha hb hc => ?_⟩
  · obtain ⟨x, hx⟩ := Option.isSome_iff_exists.1 ha
    obtain ⟨y, hy⟩ := Option.isSome_iff_exists.1 hb
    rw [Part.closesBefore_iff hnear hx hy, Part.closesBefore_iff hnear hy hx]
    unfold ClosesFirst
    by_cases hrow : x.firstRow = y.firstRow
    · rcases BitVec.le_total x.number y.number with hn | hn
      · exact .inl (.inr ⟨hrow, hn⟩)
      · exact .inr (.inr ⟨hrow.symm, hn⟩)
    · have hne : (p.tracker.rowIndex - x.firstRow).toNat ≠ (p.tracker.rowIndex - y.firstRow).toNat := by bv_omega
      rcases Nat.lt_or_gt_of_ne hne with hlt | hlt
      · exact .inr (.inl hlt)
      · exact .inl (.inl hlt)
  · obtain ⟨x, hx⟩ := Option.isSome_iff_exists.1 ha
    obtain ⟨y, hy⟩ := Option.isSome_iff_exists.1 hb
    obtain ⟨w, hw⟩ := Option.isSome_iff_exists.1 hc
    rw [Part.closesBefore_iff hnear hx hy, Part.closesBefore_iff hnear hy hw, Part.closesBefore_iff hnear hx hw]
    rintro (hxy | ⟨hrow, hn⟩) (hyw | ⟨hrow', hn'⟩)
    · exact .inl (Nat.lt_trans hyw hxy)
    · exact .inl (hrow' ▸ hxy)
    · exact .inl (by rw [hrow]; exact hyw)
    · exact .inr ⟨hrow.trans hrow', BitVec.le_trans hn hn'⟩

/-- Open owners put in close order. -/
theorem Part.closeOrder_sorted {os : List Owner} (hos : ∀ o ∈ os, (p.hideOf o).isSome = true) :
    (p.closeOrder os).Pairwise
      (fun a b => ∀ x y, p.hideOf a = some x → p.hideOf b = some y → ClosesFirst p.tracker.rowIndex x y) :=
  (sortBy_pairwise (Part.closesBefore_ranks hnear) hos).imp fun hab _ _ hx hy => (Part.closesBefore_iff hnear hx hy).1 hab

theorem Part.toClose_sorted : p.toClose.Pairwise
    (fun a b => ∀ x y, p.hideOf a = some x → p.hideOf b = some y → ClosesFirst p.tracker.rowIndex x y) :=
  Part.closeOrder_sorted hnear fun o ho => (p.mem_openOwners o).1 (List.mem_of_mem_filter ho)

end CloseOrder

theorem Part.atStage_toClose (p : Part) (r : CondRow) (st : PassStage) : (p.atStage r st).toClose = p.toClose := rfl

/-- After the closing check the pass holds the list of hides to close (R42). -/
theorem Part.checkedStage_pass (p : Part) (r : CondRow) :
    (p.checkedStage r).tracker.pass = some { row := r, stage := .closing (p.checkedStage r).toClose } := by
  rw [checkedStage_eq, Part.atStage_toClose]
  rfl

/-- Settles O25: the close clause by clause, the order of closes, and the units of the stages that close hides. -/
theorem hidesClose : Obligations.HidesClose := by
  refine ⟨fun p c o h hh hlen => ?close, fun p => ?order, fun s r o os => ?units, fun s r rest hp hq ht => ?take⟩
  case close =>
    intro own n z info freed q
    have hz : z = p.closingHide c o h := (CloseCause.marked_eq c (h.breached n)).symm
    have hinfo : info = p.infoOf o.source (p.closingHide c o h) := by rw [← hz, Owner.source_eq]
    have hrecent := Part.closeHide_recent c hh hlen
    obtain ⟨-, hprev, hcur⟩ := p.closeHide_tracker_kept c o
    refine ⟨by rw [Part.closeHide_hideOf c hh hlen, if_pos rfl],
      fun x hx => by rw [Part.closeHide_hideOf c hh hlen, if_neg hx],
      by rw [Part.closeHide_tracker c (Option.isSome_iff_exists.2 ⟨h, hh⟩)],
      Part.wClosed_mem_closeHide_dirty c hh hlen, hprev, hcur, Part.closeHide_holes c hh hlen,
      fun i hi => by rw [hrecent, hi]; rfl, fun hs => by rw [hrecent, hs]; rfl, Part.closeHide_waiting c hh hlen,
      fun hc hroom => ?_, fun hc hroom r hr => ?_, fun hc hr => ?_⟩
    · rw [hinfo]
      exact Part.closeHide_outgoing c hh hlen hroom (if_pos hc)
    · rw [hinfo] at hr ⊢
      exact Part.closeHide_outgoing c hh hlen hroom ((if_neg hc).trans hr)
    · rw [hinfo] at hr ⊢
      exact Part.closeHide_job c hh hlen hc hr
  case order =>
    exact ⟨p.toClose_nodup, (p.closeOrder_perm _).nodup_iff.2 p.openOwners_nodup, p.mem_toClose, p.mem_closeOrder_openOwners,
      fun hnear => ⟨Part.toClose_sorted hnear, Part.closeOrder_sorted hnear fun o ho => (p.mem_openOwners o).1 ho⟩⟩
  case units =>
    refine ⟨fun h => ⟨{ s with part := s.part.checkedStage r }, ?check, s.part.checkedStage_pass r⟩, fun h => ?_, fun h => ?_,
      fun h => ?_⟩
    case check => rw [exec_rowPass_one h, Part.passUnit, h]
    all_goals
      rw [exec_rowPass_one h]
      unfold Part.passUnit
      rw [h]
      rfl
  case take =>
    refine ⟨{ s with part := s.part.takeRow }, by rw [exec_rowPass_eq, Part.rowPass_none_pass hp]; rfl, ?_⟩
    show s.part.takeRow.tracker.pass = _
    rw [Part.takeRow_tracker hq, Part.firstStage, if_pos ht]

end Sys2Proof.Machine

/-! ## Segmentation -/

namespace Sys2Proof.Machine

/-! ### The covered runs (R24) -/

/-- The list holds the maximal covered runs of the columns from `lo` to below `hi`, left to right. -/
structure CoveredRuns (row : Beams) (lo hi : Nat) (l : List SegPlan) : Prop where
  inside : ∀ g ∈ l, lo ≤ g.start ∧ g.start ≤ g.stop ∧ g.stop < hi ∧ g.united = false
  covered : ∀ g ∈ l, ∀ c, g.start ≤ c → c ≤ g.stop → row.getLsbD c = true
  complete : ∀ c, lo ≤ c → c < hi → row.getLsbD c = true → ∃ g ∈ l, g.start ≤ c ∧ c ≤ g.stop
  apart : l.Pairwise (fun a b => a.stop + 1 < b.start)

theorem CoveredRuns.nil (row : Beams) (lo : Nat) : CoveredRuns row lo lo [] :=
  ⟨by simp, by simp, fun c hlo hhi => absurd hlo (by omega), .nil⟩

/-- An uncovered column in front of the runs. -/
theorem CoveredRuns.skip {row : Beams} {lo hi : Nat} {l : List SegPlan} (h : CoveredRuns row (lo + 1) hi l)
    (hlo : row.getLsbD lo = false) : CoveredRuns row lo hi l := by
  refine ⟨fun g hg => ?_, h.covered, fun c hc hhi hcov => ?_, h.apart⟩
  · obtain ⟨hstart, hrest⟩ := h.inside g hg
    exact ⟨by omega, hrest⟩
  · have hne : lo ≠ c := by rintro rfl; rw [hlo] at hcov; exact absurd hcov (by simp)
    exact h.complete c (by omega) hhi hcov

/-- A covered run that an uncovered column, or the end, comes after. -/
theorem CoveredRuns.run {row : Beams} {a col hi : Nat} {l : List SegPlan} (h : CoveredRuns row (col + 1) hi l)
    (ha : a < col) (hhi : col ≤ hi) (hrun : ∀ c, a ≤ c → c < col → row.getLsbD c = true)
    (hcol : col < hi → row.getLsbD col = false) :
    CoveredRuns row a hi ({ start := a, stop := col - 1, united := false } :: l) := by
  refine ⟨List.forall_mem_cons.2 ⟨⟨Nat.le_refl _, by simp only; omega, by simp only; omega, rfl⟩, fun g hg => ?_⟩,
    List.forall_mem_cons.2 ⟨fun c hc hc' => hrun c hc (by simp only at hc'; omega), h.covered⟩, fun c hc hc' hcov => ?_,
    List.pairwise_cons.2 ⟨fun g hg => ?_, h.apart⟩⟩
  · obtain ⟨hstart, hrest⟩ := h.inside g hg
    exact ⟨by omega, hrest⟩
  · by_cases hlt : c < col
    · exact ⟨_, List.mem_cons_self .., hc, by simp only; omega⟩
    · have hne : c ≠ col := by rintro rfl; rw [hcol hc'] at hcov; exact absurd hcov (by simp)
      obtain ⟨g, hg, hgc⟩ := h.complete c (by omega) hc' hcov
      exact ⟨g, List.mem_cons_of_mem _ hg, hgc⟩
  · obtain ⟨hstart, -⟩ := h.inside g hg
    simp only
    omega

/-- What is found from a column on, with a run open or none. -/
theorem runsFrom_coveredRuns (row : Beams) (n col : Nat) (o : Option Nat)
    (ho : ∀ a, o = some a → a < col ∧ ∀ c, a ≤ c → c < col → row.getLsbD c = true) :
    CoveredRuns row (o.getD col) (col + n) (runsFrom row n col o) := by
  induction n generalizing col o with
  | zero =>
    cases o with
    | none => exact .nil row col
    | some a =>
      obtain ⟨ha, hrun⟩ := ho a rfl
      refine CoveredRuns.run ?_ ha (Nat.le_refl _) hrun (fun hlt => absurd hlt (Nat.lt_irrefl _))
      exact ⟨by simp, by simp, fun c hc hc' => absurd hc (by omega), .nil⟩
  | succ n ih =>
    rw [show col + (n + 1) = col + 1 + n by omega]
    cases o with
    | none =>
      by_cases hcol : row.getLsbD col = true
      · have hrest := ih (col + 1) (some col) (by
          rintro a ⟨⟩
          exact ⟨Nat.lt_succ_self _, fun c hc hc' => by rw [show c = col by omega]; exact hcol⟩)
        rwa [runsFrom, if_pos hcol]
      · have hrest := ih (col + 1) none (by simp)
        rw [runsFrom, if_neg hcol]
        exact hrest.skip (Bool.eq_false_of_not_eq_true hcol)
    | some a =>
      obtain ⟨ha, hrun⟩ := ho a rfl
      by_cases hcol : row.getLsbD col = true
      · have hrest := ih (col + 1) (some a) (by
          rintro b ⟨⟩
          refine ⟨Nat.lt_succ_of_lt ha, fun c hc hc' => ?_⟩
          by_cases hlt : c < col
          · exact hrun c hc hlt
          · rw [show c = col by omega]; exact hcol)
        rwa [runsFrom, if_pos hcol]
      · have hrest := ih (col + 1) none (by simp)
        rw [runsFrom, if_neg hcol]
        exact hrest.run ha (by omega) hrun (fun _ => Bool.eq_false_of_not_eq_true hcol)

/-! ### Runs past the 128th (R25) -/

theorem unite_of_length_le {runs : List SegPlan} (h : runs.length ≤ 128) : unite runs = runs := by
  unfold unite
  split
  · next r s rest hd =>
    have hlength := congrArg List.length hd
    rw [List.length_drop, List.length_cons, List.length_cons] at hlength
    omega
  · rfl

theorem unite_of_lt_length {runs : List SegPlan} (h : 128 < runs.length) :
    ∃ a z, runs[127]? = some a ∧ runs.getLast? = some z ∧
      unite runs = runs.take 127 ++ [{ start := a.start, stop := z.stop, united := true }] := by
  have hdrop : ∃ r s rest, runs.drop 127 = r :: s :: rest := by
    match hd : runs.drop 127 with
    | [] => have hlength := congrArg List.length hd; simp at hlength; omega
    | [r] => have hlength := congrArg List.length hd; simp at hlength; omega
    | r :: s :: rest => exact ⟨r, s, rest, rfl⟩
  obtain ⟨r, s, rest, hd⟩ := hdrop
  refine ⟨r, (s :: rest).getLast (by simp), ?_, ?_, ?_⟩
  · have hget : (runs.drop 127)[0]? = some r := by rw [hd]; rfl
    rwa [List.getElem?_drop] at hget
  · rw [← List.take_append_drop 127 runs, hd, List.getLast?_append_of_ne_nil _ (by simp), List.getLast?_cons_cons,
      List.getLast?_eq_getLast_of_ne_nil (by simp)]
  · unfold unite
    split
    · next r' s' rest' hd' =>
      obtain ⟨rfl, rfl, rfl⟩ : r = r' ∧ s = s' ∧ rest = rest' := by simpa using hd.symm.trans hd'
      rfl
    · next hnot => exact absurd hd (hnot r s rest)

end Sys2Proof.Machine

/-! ## Ownership of a segment -/

namespace Sys2Proof.Machine

/-! ### The owner set (R29) -/

theorem addOwner_nodup {os : List Owner} (o : Owner) (h : os.Nodup) : (addOwner os o).Nodup := by
  unfold addOwner
  split
  · exact h
  · next hnot =>
    refine List.nodup_append.2 ⟨h, List.nodup_singleton o, fun a ha b hb hab => ?_⟩
    rw [List.mem_singleton] at hb
    exact hnot (by rw [List.contains_iff_mem, ← hb, ← hab]; exact ha)

theorem mem_addOwner (os : List Owner) (o c : Owner) : c ∈ addOwner os o ↔ c ∈ os ∨ c = o := by
  unfold addOwner
  split
  · next hin =>
    have ho : o ∈ os := List.contains_iff_mem.1 hin
    exact ⟨.inl, fun hc => hc.elim id (fun e => e ▸ ho)⟩
  · simp

theorem foldl_addOwner (l acc : List Owner) (h : acc.Nodup) :
    (l.foldl addOwner acc).Nodup ∧ ∀ c, c ∈ l.foldl addOwner acc ↔ c ∈ acc ∨ c ∈ l := by
  induction l generalizing acc with
  | nil => exact ⟨h, by simp⟩
  | cons o l ih =>
    obtain ⟨hnodup, hmem⟩ := ih (addOwner acc o) (addOwner_nodup o h)
    refine ⟨hnodup, fun c => ?_⟩
    rw [List.foldl_cons, hmem, mem_addOwner, List.mem_cons, or_assoc]

section Ownership

variable (p : Part) (g : SegPlan)

theorem Part.ownerSet_nodup : (p.ownerSet g).Nodup := (foldl_addOwner _ [] .nil).1

theorem Part.mem_ownerSet (o : Owner) :
    o ∈ p.ownerSet g ↔ ∃ s ∈ p.tracker.prev, s.owner = o ∧ s.start ≤ g.stop ∧ g.start ≤ s.stop := by
  rw [Part.ownerSet, (foldl_addOwner _ [] .nil).2]
  simp only [List.not_mem_nil, false_or, List.mem_map, List.mem_filter, Seg.overlaps, Bool.and_eq_true, decide_eq_true_eq]
  exact ⟨fun ⟨s, ⟨hs, hover⟩, ho⟩ => ⟨s, hs, ho, hover⟩, fun ⟨s, hs, ho, hover⟩ => ⟨s, ⟨hs, hover⟩, ho⟩⟩

/-! ### The owner and its segment (R25, R29) -/

/-- The owner that a segment is given, by a birth or a merge. -/
def Part.givenOwner : Owner × Part := if p.ownerSet g = [] then p.birth g else p.mergeOwners (p.ownerSet g)

/-- The segment joins the current list with its owner. -/
def Part.withSegment (o : Owner) : Part :=
  { p with tracker.cur := p.tracker.cur ++ [{ start := g.start, stop := g.stop, owner := o }] }

theorem Part.ownSegment_eq : p.ownSegment g =
    if g.united then ((p.givenOwner g).2.withSegment g (p.givenOwner g).1).flagFragment (p.givenOwner g).1
    else (p.givenOwner g).2.withSegment g (p.givenOwner g).1 := by
  unfold Part.ownSegment Part.givenOwner
  cases p.ownerSet g <;> rfl

variable {p} {o : Owner} {h : Hide} (hh : p.hideOf o = some h)
include hh

theorem Part.flagFragment_of_flagged (hf : h.flags.fragment = true) : p.flagFragment o = p := by
  unfold Part.flagFragment
  rw [hh]
  exact if_pos hf

/-- R25: the owner gets FRAGMENT, and the event is raised. -/
theorem Part.flagFragment_of_not_flagged (hf : h.flags.fragment = false) : p.flagFragment o =
    (p.setHide o (some { h with flags.fragment := true })).raise .fragmentRow (h.number.setWidth 32) := by
  unfold Part.flagFragment
  rw [hh]
  exact if_neg (by simp [hf])

end Ownership

theorem Part.raise_hideOf (p : Part) (k : EventKind) (a : Word) (o : Owner) : (p.raise k a).hideOf o = p.hideOf o := by
  cases o <;> simp [Part.hideOf]

end Sys2Proof.Machine

/-! ## Accumulation -/

namespace Sys2Proof.Machine

/-! ### Changes of the owners of some segments, one segment after another -/

/-- For each segment in turn its owner's hide changes. -/
def Part.modifyEach (p : Part) (f : Seg → Hide → Hide) (l : List Seg) : Part :=
  l.foldl (fun p s => p.modifyHide s.owner (f s)) p

section ModifyEach

variable (p : Part) (l : List Seg)

theorem Part.modifyHide_frame (o : Owner) (f : Hide → Hide) :
    ∃ t sp, p.modifyHide o f = { p with tracker.table := t, tracker.spill := sp } := by
  cases o <;> exact ⟨_, _, rfl⟩

theorem Part.modifyEach_frame (f : Seg → Hide → Hide) :
    ∃ t sp, p.modifyEach f l = { p with tracker.table := t, tracker.spill := sp } := by
  induction l generalizing p with
  | nil => exact ⟨_, _, rfl⟩
  | cons s l ih =>
    obtain ⟨t, sp, hs⟩ := p.modifyHide_frame s.owner (f s)
    obtain ⟨t', sp', hl⟩ := ih (p.modifyHide s.owner (f s))
    exact ⟨t', sp', by rw [Part.modifyEach, List.foldl_cons, ← Part.modifyEach, hl, hs]⟩

/-- An owner's hide takes the changes of the owner's own segments. -/
theorem Part.modifyEach_hideOf (f : Seg → Hide → Hide) (o : Owner) : (p.modifyEach f l).hideOf o =
    (p.hideOf o).map (fun h => (l.filter (fun s => decide (s.owner = o))).foldl (fun h s => f s h) h) := by
  induction l generalizing p with
  | nil => simp [Part.modifyEach]
  | cons s l ih =>
    rw [Part.modifyEach, List.foldl_cons, ← Part.modifyEach, ih, Part.modifyHide_hideOf, List.filter_cons]
    by_cases ho : s.owner = o
    · subst ho; simp [Function.comp_def]
    · simp [ho, Ne.symm ho]

/-- A change that reads the row index and the settings in force reads those of before all changes. -/
theorem Part.foldl_modifyHide_eq (f : Word → SetupPage → Seg → Hide → Hide) :
    l.foldl (fun p s => p.modifyHide s.owner (f p.tracker.rowIndex p.setup s)) p =
      p.modifyEach (f p.tracker.rowIndex p.setup) l := by
  induction l generalizing p with
  | nil => rfl
  | cons s l ih =>
    rw [List.foldl_cons, ih, Part.modifyHide_rowIndex, Part.modifyHide_setup, Part.modifyEach, Part.modifyEach, List.foldl_cons]

theorem Part.accumulate_eq (r : CondRow) : p.accumulate r =
    (p.modifyEach (fun s h => h.addSegment p.tracker.rowIndex p.setup.guarded.beams r s) p.tracker.cur).modifyEach
      (fun _ h => h.testNoise p.setup.unguarded.noiseLimit) p.tracker.cur := by
  have hsegments := p.foldl_modifyHide_eq p.tracker.cur
    (fun row setup s h => h.addSegment row setup.guarded.beams r s)
  obtain ⟨t, sp, hframe⟩ := p.modifyEach_frame p.tracker.cur
    (fun s h => h.addSegment p.tracker.rowIndex p.setup.guarded.beams r s)
  unfold Part.accumulate
  dsimp only at hsegments ⊢
  rw [hsegments, Part.foldl_modifyHide_eq _ _ (fun _ setup _ h => h.testNoise setup.unguarded.noiseLimit), hframe]

end ModifyEach

/-! ### What a row adds to one owner (R38 to R41) -/

/-- The noisy beams of a segment, counted over all beams. -/
theorem noiseIn_eq (noisy : Beams) (s : Seg) : noiseIn noisy s = ((List.range 384).filter
    (fun c => decide (s.start ≤ c) && decide (c ≤ s.stop) && noisy.getLsbD c)).length := by
  have hnodup : (columns s.start s.stop).Nodup :=
    List.nodup_range.map (fun a b hab => Nat.add_right_cancel hab)
  refine List.Perm.length_eq ((List.perm_ext_iff_of_nodup (hnodup.filter _) (List.nodup_range.filter _)).2 fun c => ?_)
  simp only [List.mem_filter, mem_columns, List.mem_range, Bool.and_eq_true, decide_eq_true_eq]
  exact ⟨fun ⟨hc, hn⟩ => ⟨BitVec.lt_of_getLsbD hn, hc, hn⟩, fun ⟨_, hc, hn⟩ => ⟨hc, hn⟩⟩

/-- What some segments of a row add to their owner (R38, R39, R41). -/
def Hide.addSegments (h : Hide) (row : Word) (beams : Nat) (r : CondRow) (mine : List Seg) : Hide :=
  { h with
    covered := min 4294967295 (h.covered + (mine.map Seg.width).sum)
    lastRow := row
    minCol := (mine.map Seg.start).foldl min h.minCol
    maxCol := (mine.map Seg.stop).foldl max h.maxCol
    noise := min 65535 (h.noise + (mine.map (noiseIn r.noisy)).sum)
    flags := { h.flags with
      edge := h.flags.edge || mine.any (fun s => decide (s.start = 0) || decide (s.stop + 1 = beams))
      gapRows := h.flags.gapRows || r.gap } }

theorem min_add_min (limit a b c : Nat) : min limit (min limit (a + b) + c) = min limit (a + (b + c)) := by omega

theorem Hide.foldl_addSegment (h : Hide) (row : Word) (beams : Nat) (r : CondRow) (s : Seg) (ss : List Seg) :
    (s :: ss).foldl (fun h s => h.addSegment row beams r s) h = h.addSegments row beams r (s :: ss) := by
  induction ss generalizing h s with
  | nil => simp [Hide.addSegment, Hide.addSegments, HideFlags.addRow, satAdd, max16, max32]
  | cons t ss ih =>
    rw [List.foldl_cons, ih]
    simp only [Hide.addSegments, Hide.addSegment, HideFlags.addRow, satAdd, max16, max32, List.map_cons, List.sum_cons,
      List.foldl_cons, List.any_cons, min_add_min, Bool.or_assoc, Bool.or_self]

/-- The NOISY test once more finds nothing new. -/
theorem Hide.testNoise_testNoise (h : Hide) (limit : Nat) : (h.testNoise limit).testNoise limit = h.testNoise limit := by
  unfold Hide.testNoise HideFlags.addNoisy
  dsimp only
  rw [Bool.or_assoc, Bool.or_self]

theorem Hide.foldl_testNoise (h : Hide) (limit : Nat) (s : Seg) (ss : List Seg) :
    (s :: ss).foldl (fun h _ => h.testNoise limit) h = h.testNoise limit := by
  induction ss generalizing h s with
  | nil => rfl
  | cons t ss ih => rw [List.foldl_cons, ih, Hide.testNoise_testNoise]

/-- The accumulation stage, owner by owner. -/
theorem Part.accumulate_hideOf (p : Part) (r : CondRow) (o : Owner) : (p.accumulate r).hideOf o =
    (p.hideOf o).map (fun h =>
      let mine := p.tracker.cur.filter (fun s => decide (s.owner = o))
      mine.foldl (fun h _ => h.testNoise p.setup.unguarded.noiseLimit)
        (mine.foldl (fun h s => h.addSegment p.tracker.rowIndex p.setup.guarded.beams r s) h)) := by
  rw [Part.accumulate_eq, Part.modifyEach_hideOf, Part.modifyEach_hideOf, Option.map_map]
  rfl

/-- Settles O20: the owner set and its case, the accumulation owner by owner, the runs and their uniting. -/
theorem segmentsAreTheCoveredRuns : Obligations.SegmentsAreTheCoveredRuns := by
  refine ⟨fun p g => ?ownership, fun p r => ?accumulation, fun beams row => ?segmentation⟩
  case ownership =>
    refine ⟨p.ownerSet_nodup g, p.mem_ownerSet g, ?_⟩
    intro x q
    have hown := p.ownSegment_eq g
    refine ⟨fun hu => by rw [hown, hu]; rfl, fun hu h hh => ?_⟩
    have hflag : p.ownSegment g = q.flagFragment x.1 := by rw [hown, hu]; rfl
    rw [hflag]
    refine ⟨Part.flagFragment_of_flagged hh, fun hf => ?_⟩
    rw [Part.flagFragment_of_not_flagged hh hf]
    refine ⟨?_, fun hroom => ?_⟩
    · rw [Part.raise_hideOf, Part.setHide_hideOf _ _ _ _ (by rw [hh]; rfl), if_pos rfl]
    · rw [Part.raise_outgoing _ _ _ (by simpa using hroom), Part.setHide_recorder, Part.setHide_rowIndex]
  case accumulation =>
    refine ⟨?_, fun o => ⟨fun hnone => by rw [Part.accumulate_hideOf, hnone]; rfl, fun h hh => ?_⟩⟩
    · obtain ⟨t, sp, hfirst⟩ := p.modifyEach_frame p.tracker.cur
        (fun s h => h.addSegment p.tracker.rowIndex p.setup.guarded.beams r s)
      obtain ⟨t', sp', hsecond⟩ := Part.modifyEach_frame
        (p.modifyEach (fun s h => h.addSegment p.tracker.rowIndex p.setup.guarded.beams r s) p.tracker.cur) p.tracker.cur
        (fun _ h => h.testNoise p.setup.unguarded.noiseLimit)
      exact ⟨t', sp', by rw [Part.accumulate_eq, hsecond, hfirst]⟩
    · intro mine noisy noise
      have hmine := p.accumulate_hideOf r o
      rw [hh, Option.map_some] at hmine
      change _ = some (mine.foldl _ (mine.foldl _ h)) at hmine
      refine ⟨fun hnil => by rw [hmine, hnil]; rfl, fun hne => ?_⟩
      obtain ⟨s, ss, hcons⟩ := List.exists_cons_of_ne_nil hne
      have hnoisy : noisy = noiseIn r.noisy := funext fun s => (noiseIn_eq r.noisy s).symm
      rw [hmine, hcons, Hide.foldl_addSegment, Hide.foldl_testNoise, ← hcons]
      simp only [noise, hnoisy]
      rfl
  case segmentation =>
    intro runs segs
    have hruns : CoveredRuns row 0 beams runs := by
      simpa using runsFrom_coveredRuns row beams 0 none (by simp)
    refine ⟨fun g hg => ?_, fun c => hruns.complete c (Nat.zero_le c), hruns.apart, unite_of_length_le, fun hlong => ?_⟩
    · obtain ⟨-, hle, hlt, hunited⟩ := hruns.inside g hg
      exact ⟨hle, hlt, hunited, hruns.covered g hg⟩
    · obtain ⟨a, z, ha, hz, hsegs⟩ := unite_of_lt_length hlong
      have htake : (runs.take 127).length = 127 := by rw [List.length_take]; omega
      refine ⟨?_, ?_, a, z, ha, hz, ?_⟩
      · rw [show segs = _ from hsegs, List.length_append, htake]; rfl
      · rw [show segs = _ from hsegs, List.take_append_of_le_length (by omega), List.take_of_length_le (by omega)]
      · rw [show segs = _ from hsegs, List.getElem?_append_right (by omega), htake]; rfl

end Sys2Proof.Machine

/-! ## The hole tracker after power-on reset, and what its tables and rows hold -/

namespace Sys2Proof.Machine

/-! ### Power-on reset (R65) -/

/-- Settles O11: the reset part and a newborn hide hold the values as written, and a commit's fill limit is its guarded set's. -/
theorem powerOnHoles : Obligations.PowerOnHoles := by
  refine ⟨fun straps s => ?reset, fun number lot row g => ?birth, fun p g => ?commit⟩
  case reset => exact ⟨s.powerOn straps, rfl, fun h hh => List.eq_of_mem_replicate hh, rfl, rfl, rfl, rfl, rfl, rfl⟩
  case birth => exact ⟨rfl, rfl, rfl, rfl, rfl⟩
  case commit => rw [Part.applyGuarded_setup]

/-! ### Entries of a table -/

theorem tableGet_eq_some_iff {α : Type} {t : List (Option α)} {i : Nat} {x : α} :
    tableGet t i = some x ↔ t[i]? = some (some x) := by
  rw [tableGet, List.getD_eq_getElem?_getD]
  cases h : t[i]? <;> simp

theorem Part.hideOf_entry_eq_some_iff {p : Part} {e : Nat} {y : Hide} :
    p.hideOf (.entry e) = some y ↔ p.tracker.table[e]? = some (some y) := tableGet_eq_some_iff

theorem Part.holeOf_iff (p : Part) (e h : Nat) :
    p.holeOf e h = true ↔ ∃ x, p.holes.table[h]? = some (some x) ∧ x.owner = e := by
  simp only [Part.holeOf, Option.any_eq_true, decide_eq_true_eq, tableGet_eq_some_iff]

/-- A hole is one of the holes of its owner. -/
theorem Part.holeOf_owner {p : Part} {h : Nat} {x : Hole} (hx : p.holes.table[h]? = some (some x)) :
    p.holeOf x.owner h = true := (p.holeOf_iff _ _).2 ⟨x, hx, rfl⟩

/-- The lowest FREE entry is the first that holds nothing (R54). -/
theorem lowestFree_eq_findIdx? {α : Type} (t : List (Option α)) (n : Nat) :
    lowestFree t n = (t.findIdx? Option.isNone).map (· + n) := by
  induction t generalizing n with
  | nil => rfl
  | cons x t ih =>
    cases x with
    | none => simp [lowestFree, List.findIdx?_cons]
    | some y => simp [lowestFree, ih, List.findIdx?_cons, Function.comp_def, Nat.add_assoc, Nat.add_comm 1]

/-- The lowest FREE entry holds nothing, and every one below it something (R54). -/
theorem lowestFree_eq_some_iff {α : Type} (t : List (Option α)) (i : Nat) :
    lowestFree t 0 = some i ↔ t[i]? = some none ∧ ∀ j : Nat, j < i → t[j]? ≠ some none := by
  rw [lowestFree_eq_findIdx?]
  simp only [Nat.add_zero, Option.map_id', List.findIdx?_eq_some_iff_getElem, Option.isNone_iff_eq_none]
  constructor
  · rintro ⟨hlt, hnone, hbelow⟩
    refine ⟨by rw [List.getElem?_eq_getElem hlt, hnone], fun j hj hfree => hbelow j hj ?_⟩
    exact (List.getElem?_eq_some_iff.1 hfree).2
  · rintro ⟨hfree, hbelow⟩
    obtain ⟨hlt, hnone⟩ := List.getElem?_eq_some_iff.1 hfree
    exact ⟨hlt, hnone, fun j hj hj' => hbelow j hj (List.getElem?_eq_some_iff.2 ⟨hj.trans hlt, hj'⟩)⟩

/-! ### Columns (R50, R59) -/

/-- A segment of an owner spans a column. -/
def Spans (segs : List Seg) (o : Owner) (c : Nat) : Prop := ∃ s ∈ segs, s.owner = o ∧ s.start ≤ c ∧ c ≤ s.stop

theorem coveredBy_iff (segs : List Seg) (o : Owner) (c : Nat) : coveredBy segs o c = true ↔ Spans segs o c := by
  simp only [coveredBy, Spans, Seg.has, List.any_eq_true, Bool.and_eq_true, decide_eq_true_eq]

/-- A run of a hole spans a column. -/
def RunSpans (runs : List Run) (h c : Nat) : Prop := ∃ r ∈ runs, r.hole = h ∧ r.start ≤ c ∧ c ≤ r.stop

theorem Run.has_iff (r : Run) (c : Nat) : r.has c = true ↔ r.start ≤ c ∧ c ≤ r.stop := by
  simp only [Run.has, Bool.and_eq_true, decide_eq_true_eq]

theorem Gap.mem_columns (g : Gap) (c : Nat) : c ∈ g.columns ↔ g.start ≤ c ∧ c ≤ g.stop := Machine.mem_columns _ _ _

end Sys2Proof.Machine

/-! ## Candidate gaps and their classes -/

namespace Sys2Proof.Machine

/-! ### Candidate gaps (R49) -/

/-- The gap between two segments, when one entry owns both. -/
def gapBetween (a b : Seg) : Option Gap :=
  (commonEntry a.owner b.owner).map fun e => { start := a.stop + 1, stop := b.start - 1, owner := e }

theorem candidateGaps_cons (a b : Seg) (rest : List Seg) :
    candidateGaps (a :: b :: rest) = (gapBetween a b).toList ++ candidateGaps (b :: rest) := by
  rw [candidateGaps, gapBetween]
  cases commonEntry a.owner b.owner <;> rfl

theorem candidateGaps_eq (segs : List Seg) :
    candidateGaps segs = (segs.zip segs.tail).filterMap (fun x => gapBetween x.1 x.2) := by
  induction segs with
  | nil => rfl
  | cons a rest ih =>
    cases rest with
    | nil => rfl
    | cons b rest =>
      rw [candidateGaps_cons, ih]
      show _ = List.filterMap _ ((a, b) :: (b :: rest).zip rest)
      rw [List.filterMap_cons]
      cases gapBetween a b <;> rfl

/-- Between segments that lie apart a gap has a column. -/
theorem candidateGaps_nonempty {segs : List Seg} (h : segs.Pairwise (fun a b => a.stop + 1 < b.start)) :
    ∀ g ∈ candidateGaps segs, g.start ≤ g.stop := by
  induction segs with
  | nil => exact fun g hg => absurd hg List.not_mem_nil
  | cons a rest ih =>
    obtain ⟨hfirst, hrest⟩ := List.pairwise_cons.1 h
    cases rest with
    | nil => exact fun g hg => absurd hg List.not_mem_nil
    | cons b rest =>
      intro g hg
      rw [candidateGaps_cons, List.mem_append, Option.mem_toList] at hg
      rcases hg with hg | hg
      · obtain ⟨e, -, rfl⟩ := Option.map_eq_some_iff.1 hg
        have hapart := hfirst b (by simp)
        show a.stop + 1 ≤ b.start - 1
        omega
      · exact ih hrest g hg

/-! ### The class of a gap (R51) -/

section Class

variable {p : Part} {g : Gap}

/-- A column of the previous row lies in a run of a hole of entry `e`. -/
def Part.InHoleOf (p : Part) (e c : Nat) : Prop :=
  ∃ r ∈ p.holes.prevRuns, r.start ≤ c ∧ c ≤ r.stop ∧ ∃ x, p.holes.table[r.hole]? = some (some x) ∧ x.owner = e

/-- A run of the previous list shares a column with the gap. -/
def Part.Touched (p : Part) (g : Gap) : Prop := ∃ r ∈ p.holes.prevRuns, r.start ≤ g.stop ∧ g.start ≤ r.stop

/-- No two runs of a list share a column (R53). -/
def DisjointRuns (runs : List Run) : Prop :=
  ∀ r ∈ runs, ∀ r' ∈ runs, ∀ c, r.has c = true → r'.has c = true → r = r'

/-- Where runs are disjoint, the run found at a column is the only one there (R53). -/
theorem holeAt_of_mem {runs : List Run} {c : Nat} {r : Run} (hr : r ∈ runs) (hc : r.has c = true)
    (hdisjoint : DisjointRuns runs) : holeAt runs c = some r.hole := by
  obtain ⟨r', hfind⟩ := Option.isSome_iff_exists.1 ((List.find?_isSome (p := fun r : Run => r.has c)).2 ⟨r, hr, hc⟩)
  have hc' : r'.has c = true := List.find?_some (p := fun r : Run => r.has c) hfind
  rw [holeAt, hfind, hdisjoint r' (List.mem_of_find?_eq_some hfind) r hr c hc' hc]
  rfl

theorem mem_of_holeAt {runs : List Run} {c h : Nat} (hat : holeAt runs c = some h) : ∃ r ∈ runs, r.has c = true ∧ r.hole = h := by
  obtain ⟨r, hfind, rfl⟩ := Option.map_eq_some_iff.1 hat
  exact ⟨r, List.mem_of_find?_eq_some hfind, List.find?_some (p := fun r : Run => r.has c) hfind, rfl⟩

/-- A cell makes a gap not a hole when it is neither its owner's nor in a run of a hole of its owner. -/
theorem Part.cellForeign_iff (e c : Nat) (hdisjoint : DisjointRuns p.holes.prevRuns) :
    p.cellForeign e c = true ↔ ¬ Spans p.tracker.prev (.entry e) c ∧ ¬ p.InHoleOf e c := by
  rw [Part.cellForeign, Bool.and_eq_true, Bool.not_eq_true', ← Bool.not_eq_true, coveredBy_iff]
  refine and_congr_right fun _ => ?_
  cases hat : holeAt p.holes.prevRuns c with
  | none =>
    refine iff_of_true rfl ?_
    rintro ⟨r, hr, hlo, hhi, -⟩
    rw [holeAt_of_mem hr ((r.has_iff c).2 ⟨hlo, hhi⟩) hdisjoint] at hat
    exact absurd hat (by simp)
  | some h =>
    obtain ⟨r, hr, hc, rfl⟩ := mem_of_holeAt hat
    have hin : p.InHoleOf e c ↔ p.holeOf e r.hole = true := by
      rw [Part.holeOf_iff]
      constructor
      · rintro ⟨r', hr', hlo, hhi, hx⟩
        rwa [hdisjoint r' hr' r hr c ((r'.has_iff c).2 ⟨hlo, hhi⟩) hc] at hx
      · obtain ⟨hlo, hhi⟩ := (r.has_iff c).1 hc
        exact fun hx => ⟨r, hr, hlo, hhi, hx⟩
    rw [hin, Bool.not_eq_true', ← Bool.not_eq_true]

variable (hrange : ∀ r ∈ p.holes.prevRuns, r.hole < 32)

theorem Part.holesOver_nodup (p : Part) (g : Gap) : (p.holesOver g).Nodup := List.nodup_range.filter _

section Overlaps
include hrange

theorem Part.mem_holesOver (h : Nat) :
    h ∈ p.holesOver g ↔ ∃ r ∈ p.holes.prevRuns, r.hole = h ∧ r.start ≤ g.stop ∧ g.start ≤ r.stop := by
  simp only [Part.holesOver, List.mem_filter, List.mem_range, List.any_eq_true, Bool.and_eq_true, decide_eq_true_eq, and_assoc]
  refine ⟨And.right, fun hover => ⟨?_, hover⟩⟩
  obtain ⟨r, hr, rfl, -⟩ := hover
  exact hrange r hr

theorem Part.holesOver_eq_nil_iff : p.holesOver g = [] ↔ ¬ p.Touched g := by
  rw [List.eq_nil_iff_forall_not_mem]
  simp only [Part.mem_holesOver hrange]
  refine ⟨fun hnone ⟨r, hr, hover⟩ => hnone r.hole ⟨r, hr, rfl, hover⟩, fun hnot h hmem => ?_⟩
  obtain ⟨r, hr, -, hover⟩ := hmem
  exact hnot ⟨r, hr, hover⟩

end Overlaps

/-- Every cell over the gap is its owner's or in a run of a hole of its owner. -/
def Part.Enclosed (p : Part) (g : Gap) : Prop :=
  ∀ c, g.start ≤ c → c ≤ g.stop → Spans p.tracker.prev (.entry g.owner) c ∨ p.InHoleOf g.owner c

variable (hdisjoint : DisjointRuns p.holes.prevRuns)
include hdisjoint

theorem Part.any_cellForeign_iff : g.columns.any (p.cellForeign g.owner) = true ↔
    ∃ c, g.start ≤ c ∧ c ≤ g.stop ∧ ¬ Spans p.tracker.prev (.entry g.owner) c ∧ ¬ p.InHoleOf g.owner c := by
  simp only [List.any_eq_true, Gap.mem_columns, Part.cellForeign_iff _ _ hdisjoint, and_assoc]

theorem Part.not_any_cellForeign_iff : ¬ g.columns.any (p.cellForeign g.owner) = true ↔ p.Enclosed g := by
  rw [Part.any_cellForeign_iff hdisjoint]
  simp only [Part.Enclosed, not_exists, not_and, not_not, or_iff_not_imp_left]

theorem Part.classOf_eq_notAHole_iff : p.classOf g = .notAHole ↔
    ∃ c, g.start ≤ c ∧ c ≤ g.stop ∧ ¬ Spans p.tracker.prev (.entry g.owner) c ∧ ¬ p.InHoleOf g.owner c := by
  rw [← Part.any_cellForeign_iff hdisjoint]
  unfold Part.classOf
  split
  · next h => exact iff_of_true rfl h
  · next h => exact iff_of_false (by split <;> simp) h

include hrange

theorem Part.classOf_eq_birth_iff : p.classOf g = .birth ↔ p.Enclosed g ∧ ¬ p.Touched g := by
  rw [← Part.not_any_cellForeign_iff hdisjoint, ← Part.holesOver_eq_nil_iff hrange, ← List.isEmpty_iff]
  unfold Part.classOf
  by_cases hforeign : g.columns.any (p.cellForeign g.owner) = true
  · simp [hforeign]
  · cases (p.holesOver g).isEmpty <;> simp [hforeign]

theorem Part.classOf_eq_continuation_iff : p.classOf g = .continuation ↔ p.Enclosed g ∧ p.Touched g := by
  rw [← Part.not_any_cellForeign_iff hdisjoint, ← not_not (a := p.Touched g), ← Part.holesOver_eq_nil_iff hrange,
    ← List.isEmpty_iff]
  unfold Part.classOf
  by_cases hforeign : g.columns.any (p.cellForeign g.owner) = true
  · simp [hforeign]
  · cases (p.holesOver g).isEmpty <;> simp [hforeign]

end Class

end Sys2Proof.Machine

/-! ## Breaches by a gap, and continuations -/

namespace Sys2Proof.Machine

/-! ### Breaching open holes, whoever their owners are (R58) -/

section BreachOpen

variable {p : Part}

theorem Hide.breached_breached (y : Hide) (m n : Nat) : (y.breached m).breached n = y.breached (m + n) := by
  rw [← Hide.addBreach_iterate, ← Hide.addBreach_iterate, ← Hide.addBreach_iterate, ← Function.iterate_add_apply, Nat.add_comm]

/-- A breach changes the hide table and the hole tracker only. -/
theorem Part.breach_frame (p : Part) (h : Nat) : ∃ t holes, p.breach h = { p with tracker.table := t, holes := holes } := by
  unfold Part.breach
  split <;> exact ⟨_, _, rfl⟩

theorem Part.foldl_breach_frame (p : Part) (hs : List Nat) :
    ∃ t holes, hs.foldl Part.breach p = { p with tracker.table := t, holes := holes } := by
  induction hs generalizing p with
  | nil => exact ⟨_, _, rfl⟩
  | cons h hs ih =>
    obtain ⟨t, holes, hrest⟩ := ih (p.breach h)
    obtain ⟨t', holes', hfirst⟩ := p.breach_frame h
    exact ⟨t, holes, by rw [List.foldl_cons, hrest, hfirst]⟩

/-- The breach of an open hole counts for the entry that owns it, and for no other. -/
theorem Part.breach_hideOf_entry {h : Nat} {x : Hole} (hx : p.holes.table[h]? = some (some x)) (e : Nat) :
    (p.breach h).hideOf (.entry e) = (p.hideOf (.entry e)).map (fun y => y.breached (if p.holeOf e h then 1 else 0)) := by
  have hown : p.holeOf e h = true ↔ e = x.owner := by
    rw [Part.holeOf_iff, hx]
    simp [eq_comm]
  rw [Part.breach_hideOf (Part.holeOf_owner hx)]
  by_cases he : e = x.owner
  · rw [if_pos (congrArg Owner.entry he), if_pos (hown.2 he)]
    exact congrArg (fun f => (p.hideOf (.entry e)).map f) (funext fun y => y.addBreach_iterate 1)
  · rw [if_neg (fun hc => he (Owner.entry.inj hc)), if_neg (fun hc => he (hown.1 hc))]
    exact Option.map_id'.symm

/-- After a breach the other entries of the hole table are as they were. -/
theorem Part.breach_getElem?_of_ne {h k : Nat} {x : Hole} (hx : p.holes.table[h]? = some (some x)) (hne : h ≠ k) :
    (p.breach h).holes.table[k]? = p.holes.table[k]? := by
  rw [Part.breach_holes (Part.holeOf_owner hx), List.getElem?_set_ne hne]

/-- Breaching different open holes, one after another: each entry counts those of its own. -/
theorem Part.foldl_breach_open (hs : List Nat) (hnodup : hs.Nodup)
    (hopen : ∀ h ∈ hs, ∃ x, p.holes.table[h]? = some (some x)) :
    (hs.foldl Part.breach p).holes = p.holes.without hs ∧ ∀ e, (hs.foldl Part.breach p).hideOf (.entry e) =
      (p.hideOf (.entry e)).map (fun y => y.breached (hs.filter (p.holeOf e)).length) := by
  induction hs generalizing p with
  | nil => exact ⟨by simp [Holes.without, runsWithout], fun e => by simp [Hide.breached_zero]⟩
  | cons h hs ih =>
    obtain ⟨hfresh, hnodup⟩ := List.nodup_cons.1 hnodup
    obtain ⟨⟨x, hx⟩, hopen⟩ := List.forall_mem_cons.1 hopen
    have hkept : ∀ k ∈ hs, (p.breach h).holes.table[k]? = p.holes.table[k]? :=
      fun k hk => Part.breach_getElem?_of_ne hx (fun hc => hfresh (hc ▸ hk))
    obtain ⟨hholes, hhides⟩ := ih hnodup (fun k hk => hkept k hk ▸ hopen k hk)
    refine ⟨?_, fun e => ?_⟩
    · rw [List.foldl_cons, hholes, Part.breach_holes (Part.holeOf_owner hx)]
      simp only [Holes.without, runsWithout_cons, List.foldl_cons]
    · have hsame : hs.filter ((p.breach h).holeOf e) = hs.filter (p.holeOf e) :=
        List.filter_congr fun k hk => by
          rw [Bool.eq_iff_iff, Part.holeOf_iff, Part.holeOf_iff, hkept k hk]
      rw [List.foldl_cons, hhides, hsame, Part.breach_hideOf_entry hx, Option.map_map]
      refine congrArg (fun f => (p.hideOf (.entry e)).map f) (funext fun y => ?_)
      rw [Function.comp_apply, Hide.breached_breached, List.filter_cons]
      split <;> simp [Nat.add_comm]

/-- The hole tracker without some holes, entry by entry. -/
theorem Holes.without_eq (holes : Holes) (hs : List Nat) : holes.without hs =
    { table := holes.table.mapIdx (fun i h => if i ∈ hs then none else h)
      prevRuns := holes.prevRuns.filter (fun r => decide (r.hole ∉ hs))
      curRuns := holes.curRuns.filter (fun r => decide (r.hole ∉ hs)) } := by
  have htable : hs.foldl (fun t h => t.set h none) holes.table =
      holes.table.mapIdx (fun i h => if i ∈ hs then none else h) := by
    refine List.ext_getElem? (fun i => ?_)
    rw [foldl_set_none_getElem?, List.getElem?_mapIdx]
    split <;> simp
  simp only [Holes.without, htable, runsWithout]

end BreachOpen

/-! ### The hole that survives (R57) -/

section OlderHole

variable (p : Part)

theorem Part.olderHole_mem (a c : Nat) : p.olderHole a c = a ∨ p.olderHole a c = c := by
  unfold Part.olderHole
  split
  · split
    · exact .inr rfl
    · split
      · exact .inr rfl
      · exact .inl rfl
  · exact .inl rfl

variable {p} in
/-- A hole of an earlier first row, or of the same one and a lower index, is chosen against another. -/
theorem Part.olderHole_of_older {a b : Nat} {x y : Hole} (hx : p.holes.table[b]? = some (some x))
    (hy : p.holes.table[a]? = some (some y))
    (hold : (x.firstRow ≠ y.firstRow ∧ (y.firstRow - x.firstRow).toNat < 2147483648) ∨ (x.firstRow = y.firstRow ∧ b < a)) :
    p.olderHole a b = b ∧ p.olderHole b a = b := by
  unfold Part.olderHole
  rw [tableGet_eq_some_iff.2 hx, tableGet_eq_some_iff.2 hy]
  dsimp only
  rcases hold with hrow | ⟨hrow, hindex⟩
  · have hbefore : before x.firstRow y.firstRow = true := (before_iff _ _).2 hrow
    exact ⟨if_pos hbefore, by rw [if_neg (not_before_of_before hbefore), if_neg (fun h => hrow.1 h.1)]⟩
  · have hsame : ¬ before y.firstRow y.firstRow = true := fun h => ((before_iff _ _).1 h).1 rfl
    rw [hrow, if_neg hsame, if_neg hsame, if_pos ⟨rfl, hindex⟩, if_neg (fun h => absurd h.2 (by omega))]
    exact ⟨rfl, rfl⟩

end OlderHole

/-! ### Absorbing holes, and the gap that joins them (R56, R57) -/

section Continue

variable {p : Part}

/-- The cell count of a hole-table entry, 0 for a FREE one. -/
def Holes.cellsOf (holes : Holes) (h : Nat) : Nat := ((holes.table.getD h none).map Hole.cells).getD 0

/-- The runs of some holes are those of another. -/
def renamedTo (b : Nat) (hs : List Nat) (runs : List Run) : List Run :=
  runs.map (fun r => if r.hole ∈ hs then { r with hole := b } else r)

theorem renamedTo_nil (b : Nat) (runs : List Run) : renamedTo b [] runs = runs := by simp [renamedTo]

theorem renamedTo_renameRuns (a b : Nat) (hs : List Nat) (runs : List Run) :
    renamedTo b hs (renameRuns a b runs) = renamedTo b (a :: hs) runs := by
  unfold renamedTo renameRuns
  rw [List.map_map]
  refine List.map_congr_left fun r _ => ?_
  by_cases ha : r.hole = a
  · simp [ha]
  · simp [ha]

/-- A hole's own runs keep its name. -/
theorem renamedTo_cons_self (b : Nat) (hs : List Nat) (runs : List Run) : renamedTo b (b :: hs) runs = renamedTo b hs runs := by
  rw [← renamedTo_renameRuns]
  refine congrArg _ ((List.map_congr_left fun r _ => ?_).trans (List.map_id _))
  split
  · next h => rw [← h]; rfl
  · rfl

theorem renamedTo_congr {b : Nat} {hs hs' : List Nat} (h : ∀ k, k ∈ hs ↔ k ∈ hs') (runs : List Run) :
    renamedTo b hs runs = renamedTo b hs' runs := by simp only [renamedTo, h]

/-- The hole tracker after hole `b`, which was `x`, has absorbed others and a gap has joined it. -/
def Holes.continued (holes : Holes) (b : Nat) (x : Hole) (others : List Nat) (g : Gap) : Holes :=
  { table := holes.table.mapIdx (fun i h =>
      if i = b then some { x with cells := min 65535 (x.cells + (others.map holes.cellsOf).sum + g.width) }
      else if i ∈ others then none else h)
    prevRuns := renamedTo b others holes.prevRuns
    curRuns := renamedTo b others holes.curRuns ++ [{ start := g.start, stop := g.stop, hole := b }] }

/-- The hole tracker after hole `b`, which was `x`, has absorbed hole `a`. -/
def Holes.absorb (holes : Holes) (b : Nat) (x : Hole) (a : Nat) : Holes :=
  { table := (holes.table.set b (some (x.addCells (holes.cellsOf a)))).set a none
    prevRuns := renameRuns a b holes.prevRuns
    curRuns := renameRuns a b holes.curRuns }

theorem Holes.absorb_cellsOf (holes : Holes) {b a k : Nat} (x : Hole) (hb : k ≠ b) (ha : k ≠ a) :
    (holes.absorb b x a).cellsOf k = holes.cellsOf k := by
  simp only [Holes.cellsOf, Holes.absorb, List.getD_eq_getElem?_getD, List.getElem?_set_ne ha.symm, List.getElem?_set_ne hb.symm]

/-- What an absorption first and the rest after it come to. -/
theorem Holes.absorb_continued (holes : Holes) {b a : Nat} (x : Hole) {others : List Nat} (g : Gap)
    (hnodup : (b :: a :: others).Nodup) :
    (holes.absorb b x a).continued b (x.addCells (holes.cellsOf a)) others g = holes.continued b x (a :: others) g := by
  obtain ⟨hb, ha, -⟩ : b ∉ a :: others ∧ a ∉ others ∧ others.Nodup := by simpa only [List.nodup_cons] using hnodup
  rw [List.mem_cons, not_or] at hb
  have hcells : others.map (holes.absorb b x a).cellsOf = others.map holes.cellsOf :=
    List.map_congr_left fun k hk => holes.absorb_cellsOf x (fun h => hb.2 (h ▸ hk)) (fun h => ha (h ▸ hk))
  have hsum : min 65535 (min 65535 (x.cells + holes.cellsOf a) + (others.map holes.cellsOf).sum + g.width) =
      min 65535 (x.cells + (holes.cellsOf a + (others.map holes.cellsOf).sum) + g.width) := by omega
  have htable : ((holes.absorb b x a).continued b (x.addCells (holes.cellsOf a)) others g).table =
      (holes.continued b x (a :: others) g).table := by
    refine List.ext_getElem? fun i => ?_
    simp only [Holes.continued, hcells, Hole.addCells, satAdd, max16, List.map_cons, List.sum_cons, hsum, List.getElem?_mapIdx]
    simp only [Holes.absorb, List.getElem?_set', List.mem_cons]
    by_cases hib : i = b
    · subst hib; cases holes.table[i]? <;> simp [Ne.symm hb.1]
    · by_cases hia : i = a
      · subst hia; cases holes.table[i]? <;> simp [hib, Ne.symm hib]
      · simp [hib, hia, Ne.symm hib, Ne.symm hia]
  have hprev : renamedTo b others (renameRuns a b holes.prevRuns) = _ := renamedTo_renameRuns a b others holes.prevRuns
  have hcur : renamedTo b others (renameRuns a b holes.curRuns) = _ := renamedTo_renameRuns a b others holes.curRuns
  exact (Holes.mk.injEq _ _ _ _ _ _).mpr ⟨htable, hprev, congrArg (· ++ _) hcur⟩

theorem Part.absorbHole_eq {b : Nat} {x : Hole} (hx : p.holes.table[b]? = some (some x)) (a : Nat) :
    p.absorbHole b a = { p with holes := p.holes.absorb b x a } := by
  unfold Part.absorbHole
  rw [tableGet_eq_some_iff.2 hx]
  rfl

/-- Absorbing other holes into hole `b` one after another, then adding the gap to it. -/
theorem Part.absorbHoles_continue {b : Nat} {x : Hole} (hx : p.holes.table[b]? = some (some x)) (g : Gap)
    (others : List Nat) (hnodup : (b :: others).Nodup) :
    let q := others.foldl (fun p a => p.absorbHole b a) p
    (q.setHole b ((tableGet q.holes.table b).map (fun x => x.addCells g.width))).addRun g b =
      { p with holes := p.holes.continued b x others g } := by
  induction others generalizing p x with
  | nil =>
    have htable : p.holes.table.set b (some (x.addCells g.width)) = (p.holes.continued b x [] g).table := by
      refine List.ext_getElem? fun i => ?_
      simp only [Holes.continued, List.getElem?_set', List.getElem?_mapIdx]
      by_cases hi : b = i
      · subst hi; rw [hx]; simp [Hole.addCells, satAdd, max16]
      · simp [hi, Ne.symm hi]
    intro q
    show (p.setHole b ((tableGet p.holes.table b).map _)).addRun g b = _
    rw [tableGet_eq_some_iff.2 hx, Part.addRun, Part.setHole]
    simp only [Option.map_some, htable, Holes.continued, renamedTo_nil]
  | cons a others ih =>
    have hab : a ≠ b := fun h => (List.nodup_cons.1 hnodup).1 (h ▸ List.mem_cons_self)
    have hrest : (b :: others).Nodup := hnodup.sublist (by simp)
    have hq := p.absorbHole_eq hx a
    have hxq : (p.absorbHole b a).holes.table[b]? = some (some (x.addCells (p.holes.cellsOf a))) := by
      rw [hq]
      show ((p.holes.table.set b _).set a none)[b]? = _
      rw [List.getElem?_set_ne hab, List.getElem?_set_self', hx]
      rfl
    intro q
    refine (ih hxq hrest).trans ?_
    rw [hq]
    exact congrArg (fun holes => { p with holes := holes }) (p.holes.absorb_continued x g hnodup)

end Continue

section ContinueWhole

variable {p : Part} {g : Gap} {b : Nat} {x : Hole} {hs : List Nat}

/-- The hole that is older than every other one the gap overlaps survives, and absorbs the others in their order (R57). -/
theorem Part.holeContinue_eq (hnodup : hs.Nodup) (hb : b ∈ hs) (hx : p.holes.table[b]? = some (some x))
    (hold : ∀ h ∈ hs, h ≠ b → ∃ y, p.holes.table[h]? = some (some y) ∧
      ((x.firstRow ≠ y.firstRow ∧ (y.firstRow - x.firstRow).toNat < 2147483648) ∨ (x.firstRow = y.firstRow ∧ b < h))) :
    p.holeContinue g hs =
      { p with holes := p.holes.continued b x (hs.filter (fun a => decide (a ≠ b))) g } := by
  cases hs with
  | nil => exact absurd hb List.not_mem_nil
  | cons h hs =>
    have hsurvivor : hs.foldl p.olderHole h = b := by
      refine foldl_choice p.olderHole_mem hs h (fun a ha hne => ?_) hb
      obtain ⟨y, hy, hage⟩ := hold a ha hne
      exact Part.olderHole_of_older hx hy hage
    have hothers : (b :: (h :: hs).filter (fun a => decide (a ≠ b))).Nodup :=
      List.nodup_cons.2 ⟨by simp, hnodup.filter _⟩
    unfold Part.holeContinue
    dsimp only
    rw [hsurvivor]
    exact Part.absorbHoles_continue hx g _ hothers

/-- The cells of the holes under a gap are the survivor's and those of the holes it absorbs. -/
theorem Holes.sum_cellsOf (holes : Holes) (hnodup : hs.Nodup) (hb : b ∈ hs) (hx : holes.table[b]? = some (some x)) :
    (hs.map holes.cellsOf).sum = x.cells + ((hs.filter (fun a => decide (a ≠ b))).map holes.cellsOf).sum := by
  have hperm : hs.Perm (b :: hs.filter (fun a => decide (a ≠ b))) := by
    have herase := List.perm_cons_erase hb
    rw [hnodup.erase_eq_filter] at herase
    simpa [bne, Bool.beq_eq_decide_eq] using herase
  have hcells : holes.cellsOf b = x.cells := by simp [Holes.cellsOf, hx]
  rw [(hperm.map holes.cellsOf).sum_eq, List.map_cons, List.sum_cons, hcells]

/-- The continued hole tracker in terms of all the holes that the gap overlaps (R56, R57). -/
theorem Holes.continued_eq (holes : Holes) (hnodup : hs.Nodup) (hb : b ∈ hs) (hx : holes.table[b]? = some (some x)) :
    holes.continued b x (hs.filter (fun a => decide (a ≠ b))) g =
      { table := holes.table.mapIdx (fun i h =>
          if i = b then some { x with cells := min 65535 ((hs.map holes.cellsOf).sum + g.width) }
          else if i ∈ hs then none else h)
        prevRuns := renamedTo b hs holes.prevRuns
        curRuns := renamedTo b hs holes.curRuns ++ [{ start := g.start, stop := g.stop, hole := b }] } := by
  have hruns : ∀ runs, renamedTo b (hs.filter (fun a => decide (a ≠ b))) runs = renamedTo b hs runs := by
    intro runs
    rw [← renamedTo_cons_self]
    refine renamedTo_congr (fun k => ?_) runs
    by_cases hk : k = b
    · simp [hk, hb]
    · simp [hk]
  have hentry : ∀ (i : Nat) (y h : Option Hole),
      (if i = b then y else if i ∈ hs.filter (fun a => decide (a ≠ b)) then none else h) =
        if i = b then y else if i ∈ hs then none else h := by
    intro i y h
    by_cases hi : i = b
    · simp only [if_pos hi]
    · simp [hi]
  simp only [Holes.continued, hruns, ← holes.sum_cellsOf hnodup hb hx, hentry]

end ContinueWhole

/-! ### The statement -/

section GapCarriedOut

variable {p : Part} {g : Gap}

theorem Part.classifyGap_birth (h : p.classOf g = .birth) : p.classifyGap g = p.holeBirth g := by
  rw [Part.classifyGap, h]

theorem Part.classifyGap_notAHole (h : p.classOf g = .notAHole) : p.classifyGap g = p.breachOver g := by
  rw [Part.classifyGap, h]

theorem Part.classifyGap_continuation (h : p.classOf g = .continuation) (hroom : p.holes.curRuns.length < 64) :
    p.classifyGap g = p.holeContinue g (p.holesOver g) := by
  rw [Part.classifyGap, h]
  exact if_pos hroom

/-- A continuation without room for its run is no hole (R55). -/
theorem Part.classifyGap_continuation_full (h : p.classOf g = .continuation) (hfull : 64 ≤ p.holes.curRuns.length) :
    p.classifyGap g = (p.breachOver g).holeLimit g.owner := by
  rw [Part.classifyGap, h]
  exact if_neg (Nat.not_lt.2 hfull)

/-- Nothing but the hide table and the hole tracker changes when a gap breaches the holes it overlaps (R58). -/
theorem Part.breachOver_frame (p : Part) (g : Gap) :
    p.breachOver g = { p with tracker.table := (p.breachOver g).tracker.table, holes := (p.breachOver g).holes } := by
  obtain ⟨t, holes, hframe⟩ := p.foldl_breach_frame (p.holesOver g)
  rw [Part.breachOver, hframe]

end GapCarriedOut

/-- Settles O26: the classes from how each cell reads, a continuation from the survivor and its absorptions one after another, a
gap that is no hole from the breaches one after another. -/
theorem gapClassification : Obligations.GapClassification := by
  refine ⟨fun segs => ⟨?gaps, candidateGaps_nonempty⟩, fun p g _ hrange hdisjoint => ?carried⟩
  case gaps =>
    rw [candidateGaps_eq]
    congr 1
    funext ⟨a, b⟩
    dsimp only [gapBetween]
    cases a.owner with
    | spill => cases b.owner <;> rfl
    | entry i =>
      cases b.owner with
      | spill => rfl
      | entry j =>
        dsimp only [commonEntry]
        split <;> rfl
  case carried =>
    intro own run touched
    refine ⟨Part.classOf_eq_notAHole_iff hdisjoint, Part.classOf_eq_birth_iff hrange hdisjoint,
      Part.classOf_eq_continuation_iff hrange hdisjoint, ?_⟩
    intro hs width kept renamed
    have hnodup : hs.Nodup := p.holesOver_nodup g
    refine ⟨Part.mem_holesOver hrange, Part.classifyGap_birth, fun hclass hroom b x hb hx hold => ?continuation,
      Part.classifyGap_notAHole, fun hopen => ?breach⟩
    case continuation =>
      rw [Part.classifyGap_continuation hclass hroom, Part.holeContinue_eq hnodup hb hx hold, Holes.continued_eq _ hnodup hb hx]
      rfl
    case breach =>
      obtain ⟨hholes, hhides⟩ := Part.foldl_breach_open hs hnodup hopen
      refine ⟨hholes.trans (p.holes.without_eq hs), p.breachOver_frame g, fun e y hy => ?_⟩
      intro n
      refine (hhides e).trans ?_
      rw [hy]
      rfl

end Sys2Proof.Machine

/-! ## Hole births and the closing check -/

namespace Sys2Proof.Machine

/-! ### HOLE_LIMIT (R55) -/

section HoleLimit

variable {p : Part} {e : Nat} {x : Hide} (hx : p.tracker.table[e]? = some (some x))
include hx

theorem Part.holeLimit_of_flagged (hf : x.flags.holeLimit = true) : p.holeLimit e = p := by
  unfold Part.holeLimit
  rw [Part.hideOf_entry_eq_some_iff.2 hx]
  exact if_pos hf

/-- R55: an owner without the flag gets it, and the event is raised. -/
theorem Part.holeLimit_of_not_flagged (hf : x.flags.holeLimit = false) : p.holeLimit e =
    (p.setHide (.entry e) (some { x with flags.holeLimit := true })).raise .holeTableFull (x.number.setWidth 32) := by
  unfold Part.holeLimit
  rw [Part.hideOf_entry_eq_some_iff.2 hx]
  exact if_neg (by simp [hf])

theorem Part.holeLimit_spec : (x.flags.holeLimit = true → p.holeLimit e = p) ∧
    (x.flags.holeLimit = false →
      (p.holeLimit e).tracker.table = p.tracker.table.set e (some { x with flags.holeLimit := true }) ∧
      (p.recorder.outgoing.length < 8 → (p.holeLimit e).recorder.outgoing =
        p.recorder.outgoing ++ [.event .holeTableFull p.tracker.rowIndex (x.number.setWidth 32)])) := by
  refine ⟨Part.holeLimit_of_flagged hx, fun hf => ?_⟩
  rw [Part.holeLimit_of_not_flagged hx hf]
  refine ⟨?_, fun hroom => ?_⟩
  · rw [Part.raise_tracker]; rfl
  · rw [Part.raise_outgoing _ _ _ (by simpa using hroom), Part.setHide_recorder, Part.setHide_rowIndex]

end HoleLimit

/-! ### Births (R54) -/

section HoleBirths

variable {p : Part} {g : Gap}

theorem Part.holeBirth_room {h : Nat} (hfree : lowestFree p.holes.table 0 = some h) (hroom : p.holes.curRuns.length < 64) :
    p.holeBirth g =
      (p.setHole h (some { owner := g.owner, firstRow := p.tracker.rowIndex, cells := min max16 g.width })).addRun g h := by
  unfold Part.holeBirth
  rw [hfree]
  exact if_pos hroom

/-- A gap that finds no FREE entry, or no place for its run, makes no hole (R55). -/
theorem Part.holeBirth_full (h : (∀ j : Nat, p.holes.table[j]? ≠ some none) ∨ 64 ≤ p.holes.curRuns.length) :
    p.holeBirth g = p.holeLimit g.owner := by
  unfold Part.holeBirth
  split
  · next i hi =>
    obtain ⟨hfree, -⟩ := (lowestFree_eq_some_iff _ _).1 hi
    exact if_neg fun hroom => h.elim (fun hopen => hopen i hfree) (Nat.not_le.2 hroom)
  · rfl

end HoleBirths

/-- Settles O27: a birth where an entry and a place are free, and HOLE_LIMIT for the owner where not. -/
theorem holeBirth : Obligations.HoleBirth := by
  refine fun p g => ⟨fun h _ hfree hlow hroom => ?born, fun hfull => ?full, fun hclass hfull => ?continuation⟩
  case born => exact Part.holeBirth_room ((lowestFree_eq_some_iff _ _).2 ⟨hfree, hlow⟩) hroom
  case full =>
    rw [Part.holeBirth_full hfull]
    exact ⟨Part.holeLimit_holes p g.owner, fun x hx => Part.holeLimit_spec hx⟩
  case continuation =>
    intro q
    rw [Part.classifyGap_continuation_full hclass hfull]
    refine ⟨Part.holeLimit_holes q g.owner, fun x hx => ?_⟩
    have hspec := Part.holeLimit_spec hx
    rwa [show q.recorder = p.recorder from Part.breachOver_recorder p g,
      show q.tracker.rowIndex = p.tracker.rowIndex from Part.breachOver_rowIndex p g] at hspec

/-! ### The closing check (R59 to R61) -/

section ClosingCheck

variable {p : Part} {e h : Nat} {x : Hole} {y : Hide}

theorem Part.mem_columnsUnder (p : Part) (h c : Nat) : c ∈ p.columnsUnder h ↔ RunSpans p.holes.prevRuns h c := by
  simp only [Part.columnsUnder, RunSpans, List.mem_flatten, List.mem_map, List.mem_filter, decide_eq_true_eq]
  constructor
  · rintro ⟨-, ⟨r, ⟨hr, hhole⟩, rfl⟩, hc⟩
    exact ⟨r, hr, hhole, (mem_columns _ _ _).1 hc⟩
  · rintro ⟨r, hr, hhole, hc⟩
    exact ⟨_, ⟨r, ⟨hr, hhole⟩, rfl⟩, (mem_columns _ _ _).2 hc⟩

theorem Part.cellContinuing_iff (p : Part) (h c : Nat) : p.cellContinuing h c = true ↔ RunSpans p.holes.curRuns h c := by
  simp only [Part.cellContinuing, RunSpans, Run.has, List.any_eq_true, Bool.and_eq_true, decide_eq_true_eq]

theorem Part.cellOpen_iff (p : Part) (e h c : Nat) :
    p.cellOpen e h c = true ↔ ¬ RunSpans p.holes.curRuns h c ∧ ¬ Spans p.tracker.cur (.entry e) c := by
  rw [Part.cellOpen, Bool.and_eq_true, Bool.not_eq_true', Bool.not_eq_true', ← Bool.not_eq_true, ← Bool.not_eq_true,
    Part.cellContinuing_iff, coveredBy_iff]

theorem Part.columnsUnder_isEmpty_iff (p : Part) (h : Nat) :
    (p.columnsUnder h).isEmpty = true ↔ ¬ ∃ c, RunSpans p.holes.prevRuns h c := by
  simp only [List.isEmpty_iff, List.eq_nil_iff_forall_not_mem, Part.mem_columnsUnder, not_exists]

theorem Part.any_cellOpen_iff (p : Part) (e h : Nat) : (p.columnsUnder h).any (p.cellOpen e h) = true ↔
    ∃ c, RunSpans p.holes.prevRuns h c ∧ ¬ RunSpans p.holes.curRuns h c ∧ ¬ Spans p.tracker.cur (.entry e) c := by
  simp only [List.any_eq_true, Part.mem_columnsUnder, Part.cellOpen_iff]

theorem Part.any_cellContinuing_iff (p : Part) (h : Nat) : (p.columnsUnder h).any (p.cellContinuing h) = true ↔
    ∃ c, RunSpans p.holes.prevRuns h c ∧ RunSpans p.holes.curRuns h c := by
  simp only [List.any_eq_true, Part.mem_columnsUnder, Part.cellContinuing_iff]

theorem Part.modifyHide_entry (hy : p.tracker.table[e]? = some (some y)) (f : Hide → Hide) :
    p.modifyHide (.entry e) f = { p with tracker.table := p.tracker.table.set e (some (f y)) } := by
  rw [Part.modifyHide, Part.hideOf_entry_eq_some_iff.2 hy]
  rfl

variable (hx : p.holes.table[h]? = some (some x)) (hunder : ∃ c, RunSpans p.holes.prevRuns h c)
include hx hunder

/-- The check of a hole with a run in the previous list: an open cell first, then a continuing one (R59). -/
theorem Part.checkHole_eq : p.checkHole h =
    if (p.columnsUnder h).any (p.cellOpen x.owner h) then p.breach h
    else if (p.columnsUnder h).any (p.cellContinuing h) then p
    else (p.modifyHide (.entry x.owner) (fun y => y.enclose x.cells p.setup.guarded.fillLimit)).setHole h none := by
  unfold Part.checkHole
  rw [tableGet_eq_some_iff.2 hx]
  exact if_neg fun hempty => (p.columnsUnder_isEmpty_iff h).1 hempty hunder

/-- A cell that is neither continuing nor capped breaches the hole (R61). -/
theorem Part.checkHole_open (hopen : ∃ c, RunSpans p.holes.prevRuns h c ∧ ¬ RunSpans p.holes.curRuns h c ∧
    ¬ Spans p.tracker.cur (.entry x.owner) c) : p.checkHole h = p.breach h := by
  rw [Part.checkHole_eq hx hunder]
  exact if_pos ((p.any_cellOpen_iff _ _).2 hopen)

variable (hshut : ∀ c, RunSpans p.holes.prevRuns h c → RunSpans p.holes.curRuns h c ∨ Spans p.tracker.cur (.entry x.owner) c)
include hshut

theorem Part.checkHole_shut : p.checkHole h =
    if (p.columnsUnder h).any (p.cellContinuing h) then p
    else (p.modifyHide (.entry x.owner) (fun y => y.enclose x.cells p.setup.guarded.fillLimit)).setHole h none := by
  rw [Part.checkHole_eq hx hunder]
  refine if_neg fun hany => ?_
  obtain ⟨c, hc, hgoing, hcapped⟩ := (p.any_cellOpen_iff _ _).1 hany
  exact (hshut c hc).elim hgoing hcapped

end ClosingCheck

/-- Settles O28: the check's three outcomes by what lies under the hole's previous runs. -/
theorem holeClosingCheck : Obligations.HoleClosingCheck := by
  intro p h x y hx hy under going capped
  refine ⟨fun ⟨c, hc, hopen⟩ => ?breached, fun hshut ⟨c, hc, hgoing⟩ => ?kept, fun hcapped hunder => ?enclosed⟩
  case breached =>
    rw [Part.checkHole_open hx ⟨c, hc⟩ ⟨c, hc, hopen⟩, Part.breach_eq (Part.holeOf_owner hx), Part.modifyHide_entry hy]
    rfl
  case kept =>
    rw [Part.checkHole_shut hx ⟨c, hc⟩ hshut]
    exact if_pos ((p.any_cellContinuing_iff h).2 ⟨c, hc, hgoing⟩)
  case enclosed =>
    rw [Part.checkHole_shut hx hunder (fun c hc => .inr (hcapped c hc).1), if_neg, Part.modifyHide_entry hy]
    · rfl
    · intro hany
      obtain ⟨c, hc, hgoing⟩ := (p.any_cellContinuing_iff h).1 hany
      exact (hcapped c hc).2 hgoing

end Sys2Proof.Machine

/-! ## Area, wheel symbols and grade -/

namespace Sys2Proof.Machine

/-! ### Area in selling units (R69 to R71) -/

section Area

variable (g : Guarded) (cells : Nat)

/-- The model's natural numerator is R70's product, for every trim that R178 lets through. -/
theorem areaNumerator_cast (h : -500 ≤ g.trim) :
    (areaNumerator g cells : Int) = cells * (g.beamPitch * g.rowPitch) * (10000 + g.trim) := by
  rw [areaNumerator, Nat.cast_mul, Int.toNat_of_nonneg (by omega)]
  push_cast
  rfl

theorem SellUnit.area_pos (u : SellUnit) : 0 < u.area := by cases u <;> decide

theorem areaDivisor_pos : 0 < areaDivisor g := Nat.mul_pos (by decide) g.unit.area_pos

/-- Half the divisor is a whole number, so NEAREST is exact (R71). -/
theorem two_dvd_areaDivisor : 2 ∣ areaDivisor g := Dvd.dvd.mul_right (by decide) _

end Area

section Rounding

variable {n d : Nat} (hd : 0 < d)
include hd

/-- DOWN is the largest quotient not above the exact one. -/
theorem roundQuotient_down_bounds :
    roundQuotient .down n d * d ≤ n ∧ n < (roundQuotient .down n d + 1) * d :=
  ⟨Nat.div_mul_le_self n d, (Nat.div_lt_iff_lt_mul hd).1 (Nat.lt_succ_self _)⟩

/-- NEAREST is within half a unit of the exact quotient, and a half is rounded up. -/
theorem roundQuotient_nearest_bounds (heven : 2 ∣ d) :
    2 * (roundQuotient .nearest n d * d) ≤ 2 * n + d ∧ 2 * n + d < 2 * ((roundQuotient .nearest n d + 1) * d) := by
  obtain ⟨hle, hlt⟩ : roundQuotient .nearest n d * d ≤ n + d / 2 ∧ n + d / 2 < (roundQuotient .nearest n d + 1) * d :=
    roundQuotient_down_bounds (n := n + d / 2) hd
  have hhalf : 2 * (d / 2) = d := Nat.mul_div_cancel' heven
  omega

end Rounding

/-- Settles O29: the numerator and the divisor are the model's own, and the quotient is bounded mode by mode. -/
theorem unitsAreTheRoundedQuotient : Obligations.UnitsAreTheRoundedQuotient := by
  intro g cells hlow _ num den hnum hden
  obtain rfl : num = areaNumerator g cells := Int.ofNat.inj (hnum.trans (areaNumerator_cast g cells hlow).symm)
  obtain rfl : den = areaDivisor g := hden
  have hpos := areaDivisor_pos g
  refine ⟨fun hmode => ?down, fun hmode => ?nearest⟩
  case down =>
    rw [unitsOf, hmode]
    exact roundQuotient_down_bounds hpos
  case nearest =>
    rw [unitsOf, hmode]
    exact roundQuotient_nearest_bounds hpos (two_dvd_areaDivisor g)

/-! ### Wheel symbols (R73) -/

section WheelSymbols

variable {units : Nat}

/-- QFT shows whole square feet on three wheels and the quarters on the fourth. -/
theorem symbolsOf_qft (h : units ≤ 3999) : symbolsOf .qft units = some
    { w1 := leadingDigit (units / 4) 100, w2 := leadingDigit (units / 4) 10, w3 := units / 4 % 10,
      w4 := quarterSymbol (units % 4) } := if_neg (Nat.not_lt.2 h)

/-- TFT shows whole square feet on three wheels and the tenths on the fourth. -/
theorem symbolsOf_tft (h : units ≤ 9999) : symbolsOf .tft units = some
    { w1 := leadingDigit (units / 10) 100, w2 := leadingDigit (units / 10) 10, w3 := units / 10 % 10,
      w4 := units % 10 } := if_neg (Nat.not_lt.2 h)

/-- DM2 shows whole square decimetres on all four wheels. -/
theorem symbolsOf_dm2 (h : units ≤ 9999) : symbolsOf .dm2 units = some
    { w1 := leadingDigit units 1000, w2 := leadingDigit units 100, w3 := leadingDigit units 10,
      w4 := units % 10 } := if_neg (Nat.not_lt.2 h)

/-- The quarter wheel's four symbols: blank, ¼, ½ and ¾. -/
theorem quarterSymbol_eq {q : Nat} (h : q < 4) :
    quarterSymbol q = if q = 0 then 10 else if q = 1 then 11 else if q = 2 then 12 else 13 := by
  unfold quarterSymbol
  split_ifs <;> omega

end WheelSymbols

/-- Settles O30: the wheels unit by unit, and the examples of R73 by evaluation. -/
theorem wheelSymbols : Obligations.WheelSymbols := by
  refine fun units => ⟨fun h => ?qft, symbolsOf_tft, symbolsOf_dm2, by decide, by decide, by decide, by decide, by decide⟩
  case qft =>
    rw [symbolsOf_qft h, quarterSymbol_eq (Nat.mod_lt units (by decide))]
    rfl

/-! ### The bands (R77) -/

section Bands

variable {units : Nat}

/-- A band's number is its place in the list. -/
theorem bandOf_eq_findIdx? (bands : List Band) (k : Nat) :
    bandOf units bands k = (bands.findIdx? fun b => decide (b.low ≤ units ∧ units ≤ b.high)).map (· + k) := by
  induction bands generalizing k with
  | nil => rfl
  | cons b bands ih =>
    by_cases hb : b.low ≤ units ∧ units ≤ b.high
    · simp [bandOf, List.findIdx?_cons, hb]
    · simp [bandOf, List.findIdx?_cons, hb, ih, Function.comp_def, Nat.add_assoc, Nat.add_comm 1]

/-- The band chosen holds the units, and none below it does. -/
theorem bandOf_eq_some {bands : List Band} {k : Nat} {b : Band} (hk : bands[k]? = some b)
    (hb : b.low ≤ units ∧ units ≤ b.high)
    (hbelow : ∀ (j : Nat) (c : Band), j < k → bands[j]? = some c → ¬ (c.low ≤ units ∧ units ≤ c.high)) :
    bandOf units bands 0 = some k := by
  obtain ⟨hlt, rfl⟩ := List.getElem?_eq_some_iff.1 hk
  have hfind : (bands.findIdx? fun b => decide (b.low ≤ units ∧ units ≤ b.high)) = some k :=
    List.findIdx?_eq_some_iff_getElem.2
      ⟨hlt, decide_eq_true hb, fun j hj h => hbelow j _ hj (List.getElem?_eq_getElem _) (of_decide_eq_true h)⟩
  rw [bandOf_eq_findIdx?, hfind]
  rfl

theorem bandOf_eq_none {bands : List Band}
    (h : ∀ (k : Nat) (b : Band), bands[k]? = some b → ¬ (b.low ≤ units ∧ units ≤ b.high)) :
    bandOf units bands 0 = none := by
  have hfind : (bands.findIdx? fun b => decide (b.low ≤ units ∧ units ≤ b.high)) = none := by
    refine List.findIdx?_eq_none_iff.2 fun b hb => decide_eq_false ?_
    obtain ⟨k, hk⟩ := List.getElem?_of_mem hb
    exact h k b hk
  rw [bandOf_eq_findIdx?, hfind]
  rfl

/-- Every band of the power-on setup is disabled: its low bound is above its high bound (R77, R183). -/
theorem powerOn_bands_hold_none (k : Nat) (b : Band) (h : Unguarded.powerOn.bands[k]? = some b) :
    ¬ (b.low ≤ units ∧ units ≤ b.high) := by
  obtain rfl := List.eq_of_mem_replicate (List.mem_of_getElem? h)
  rintro ⟨hlow, hhigh⟩
  exact absurd (hlow.trans hhigh) (by decide)

variable {u : Unguarded}

theorem gradeInBands_of_band {k : Nat} (h : bandOf units u.bands 0 = some k) : gradeInBands u units none = .band k := by
  rw [gradeInBands, h]

theorem gradeInBands_of_no_band (h : bandOf units u.bands 0 = none) : gradeInBands u units none = .ungraded := by
  rw [gradeInBands, h]

theorem gradeInBands_ne_review (k : Option Nat) : gradeInBands u units k ≠ .review := by
  unfold gradeInBands
  split
  · simp
  · split <;> simp

end Bands

/-! ### The grade, step by step (R75 to R78) -/

/-- The four flags of R75. -/
theorem HideFlags.review_iff (f : HideFlags) :
    f.review = true ↔ f.double = true ∨ f.spillJoined = true ∨ f.edge = true ∨ f.truncated = true := by
  simp only [HideFlags.review, Bool.or_eq_true, or_assoc]

section GradeSteps

variable {g : Guarded} {u : Unguarded} {src : Source} {f : HideFlags} {units : Nat} {k : Option Nat}

/-- The spill account's hides are REVIEW (R75). -/
theorem gradeOf_spill : gradeOf g u .spill f units k = .review := if_pos (by simp)

variable (hf : f.review = false) (hs : src ≠ .spill)
include hf hs

/-- Past step 1 neither flags nor source matter. -/
theorem gradeOf_of_not_review : gradeOf g u src f units k =
    if units < u.smallLimit then .small
    else if u.oversizeLimit < units ∨ g.unit.maxStampable < units then .oversize
    else gradeInBands u units k := if_neg (by simp [hf, hs])

theorem gradeOf_small (hsmall : units < u.smallLimit) : gradeOf g u src f units k = .small := by
  rw [gradeOf_of_not_review hf hs]
  exact if_pos hsmall

theorem gradeOf_oversize (hsmall : u.smallLimit ≤ units)
    (hbig : u.oversizeLimit < units ∨ g.unit.maxStampable < units) : gradeOf g u src f units k = .oversize := by
  rw [gradeOf_of_not_review hf hs, if_neg (Nat.not_lt.2 hsmall)]
  exact if_pos hbig

/-- A hide that passes steps 1 to 3 is graded by its bands or its override. -/
theorem gradeOf_in_bands (hsmall : u.smallLimit ≤ units) (hbig : units ≤ u.oversizeLimit)
    (htop : units ≤ g.unit.maxStampable) : gradeOf g u src f units k = gradeInBands u units k := by
  rw [gradeOf_of_not_review hf hs, if_neg (Nat.not_lt.2 hsmall)]
  exact if_neg fun h => h.elim (Nat.not_lt.2 hbig) (Nat.not_lt.2 htop)

theorem gradeOf_ne_review : gradeOf g u src f units k ≠ .review := by
  rw [gradeOf_of_not_review hf hs]
  split
  · simp
  · split
    · simp
    · exact gradeInBands_ne_review k

end GradeSteps

/-- Settles O31: one clause for each step of 4.4, and the wheels by R74. -/
theorem gradeSteps : Obligations.GradeSteps := by
  intro g u src f units top review grade
  have hreview : review ↔ f.review = true ∨ src = .spill := by
    simp only [review, HideFlags.review_iff, or_assoc]
  have hpast : ¬ review → f.review = false ∧ src ≠ .spill := fun h => by
    obtain ⟨hf, hs⟩ := not_or.1 (mt hreview.2 h)
    exact ⟨Bool.eq_false_iff.2 hf, hs⟩
  refine ⟨?review, fun h => ?small, fun h => ?oversize, fun h hsmall hbig hunits k b hk hlow hhigh hbelow => ?band,
    (symbolsOf_eq_none_iff _ _).2, fun hunits => ?shown⟩
  case review =>
    intro h
    obtain hf | rfl := hreview.1 h
    · exact gradeOf_of_review _ _ _ _ _ hf
    · exact gradeOf_spill
  case small =>
    obtain ⟨hf, hs⟩ := hpast h
    exact gradeOf_small hf hs
  case oversize =>
    obtain ⟨hf, hs⟩ := hpast h
    exact gradeOf_oversize hf hs
  case band =>
    obtain ⟨hf, hs⟩ := hpast h
    exact (gradeOf_in_bands hf hs hsmall hbig hunits).trans (gradeInBands_of_band (bandOf_eq_some hk ⟨hlow, hhigh⟩ hbelow))
  case shown =>
    rw [Option.isSome_iff_ne_none, Ne, symbolsOf_eq_none_iff]
    exact Nat.not_lt.2 hunits

/-- Settles O32: a manual hide has no flag of R75, so it is graded by steps 2 and 3, then by its override or the bands. -/
theorem ungradedAndOverride : Obligations.UngradedAndOverride := by
  intro g u units top passes
  have hungraded : ∀ src f, f.review = false → src ≠ .spill → passes →
      (∀ (k : Nat) (b : Band), u.bands[k]? = some b → ¬ (b.low ≤ units ∧ units ≤ b.high)) →
      gradeOf g u src f units none = .ungraded := fun src f hf hs ⟨hsmall, hbig, htop⟩ hnone =>
    (gradeOf_in_bands hf hs hsmall hbig htop).trans (gradeInBands_of_no_band (bandOf_eq_none hnone))
  have hempty : HideFlags.empty.review = false := rfl
  have hmanual : Source.manual ≠ .spill := by decide
  refine ⟨hungraded, fun src f hf hs hp hbands => ?powerOn, fun k _ ⟨hsmall, hbig, htop⟩ => ?override,
    fun k => gradeOf_small hempty hmanual, fun k => gradeOf_oversize hempty hmanual,
    fun k => gradeOf_ne_review hempty hmanual, ?noOverride⟩
  case powerOn => exact hungraded src f hf hs hp (hbands ▸ powerOn_bands_hold_none)
  case override => exact gradeOf_in_bands hempty hmanual hsmall hbig htop
  case noOverride => rw [gradeOf_of_not_review hempty hmanual, gradeOf_of_not_review hempty (by decide)]

end Sys2Proof.Machine

/-! ## Lots told by id, tallies, and the outgoing record queue -/

namespace Sys2Proof.Machine

/-! ### The OPEN and the CLOSING lot by id (R85, log entry 15) -/

/-- A change of the lot of this id, any other lot as it is. -/
def Lot.onId (id : Half) (f : Lot → Lot) (l : Lot) : Lot := if l.id = id then f l else l

theorem Lot.onId_self (f : Lot → Lot) (l : Lot) : l.onId l.id f = f l := if_pos rfl

theorem Lot.onId_of_ne {id : Half} {l : Lot} (h : l.id ≠ id) (f : Lot → Lot) : l.onId id f = l := if_neg h

section LotsById

variable (p : Part) (id : Half) (f : Lot → Lot)

theorem Part.modifyLot_openLot : (p.modifyLot id f).lots.openLot = p.lots.openLot.onId id f := by
  unfold Part.modifyLot Lot.onId
  split <;> rfl

/-- Two lots of different ids: each is changed if it is the one named. -/
theorem Part.modifyLot_eq (h : ∀ c, p.lots.closing = some c → c.id ≠ p.lots.openLot.id) :
    p.modifyLot id f = { p with
      lots.openLot := p.lots.openLot.onId id f
      lots.closing := p.lots.closing.map (Lot.onId id f) } := by
  unfold Part.modifyLot
  split
  · next hopen =>
    have hclosing : p.lots.closing.map (Lot.onId id f) = p.lots.closing := by
      rw [Option.map_congr (g := fun c => c) (fun c hc => Lot.onId_of_ne (hopen ▸ h c hc) f), Option.map_id']
    rw [hclosing, ← hopen, Lot.onId_self]
  · next hopen => rw [Lot.onId_of_ne hopen]; rfl

/-- A change of the OPEN lot. -/
theorem Part.modifyLot_open :
    p.modifyLot p.lots.openLot.id f = { p with lots.openLot := f p.lots.openLot } := if_pos rfl

theorem Part.modifyLot_closing {c : Lot} (hc : p.lots.closing = some c) (hne : c.id ≠ p.lots.openLot.id) :
    (p.modifyLot id f).lots.closing = some (c.onId id f) := by
  rw [Part.modifyLot_eq _ _ _ (fun d hd => by rwa [← Option.some.inj (hc.symm.trans hd)]), hc]
  rfl

end LotsById

/-! ### The tally of a hide (R91, R92) -/

section Tallies

variable (t : Tally)

theorem addBand_getD {bands : List Nat} {k : Nat} (hk : k < bands.length) (j : Nat) :
    (addBand bands k).getD j 0 = bands.getD j 0 + if k = j then 1 else 0 := by
  simp only [addBand, List.getD_eq_getElem?_getD, List.getElem?_set]
  by_cases h : k = j
  · subst h; simp [hk]
  · simp [h]

theorem addBand_sum {bands : List Nat} {k : Nat} (hk : k < bands.length) : (addBand bands k).sum = bands.sum + 1 := by
  induction bands generalizing k with
  | nil => exact absurd hk (Nat.not_lt_zero _)
  | cons b bands ih =>
    cases k with
    | zero => simp [addBand]; omega
    | succ k =>
      have hrest := ih (Nat.lt_of_succ_lt_succ hk)
      simp only [addBand, List.set_cons_succ, List.sum_cons, List.getD_cons_succ] at hrest ⊢
      omega

/-- What the grade adds (R91): one to the count of that grade. -/
theorem Tally.addGrade_eq (g : Grade) : t.addGrade g = { t with
    bands := (t.addGrade g).bands
    small := t.small + if g = .small then 1 else 0
    oversize := t.oversize + if g = .oversize then 1 else 0
    review := t.review + if g = .review then 1 else 0
    ungraded := t.ungraded + if g = .ungraded then 1 else 0 } := by
  cases g <;> rfl

theorem Tally.addGrade_bands_getD (g : Grade) (hg : ∀ k, g = .band k → k < t.bands.length) (j : Nat) :
    (t.addGrade g).bands.getD j 0 = t.bands.getD j 0 + if g = .band j then 1 else 0 := by
  cases g with
  | band k => simpa [Tally.addGrade] using addBand_getD (hg k rfl) j
  | ungraded | small | oversize | review => simp [Tally.addGrade]

/-- The grade counts go up by one together. -/
theorem Tally.addGrade_gradeSum (g : Grade) (hg : ∀ k, g = .band k → k < t.bands.length) :
    (t.addGrade g).gradeSum = t.gradeSum + 1 := by
  cases g with
  | band k =>
    simp only [Tally.gradeSum, Tally.addGrade, addBand_sum (hg k rfl)]
    omega
  | ungraded | small | oversize | review => simp only [Tally.gradeSum, Tally.addGrade]; omega

theorem Tally.addOutcome_eq (o : StampOutcome) : t.addOutcome o = { t with
    stamped := t.stamped + if o = .stamped then 1 else 0
    unstamped := t.unstamped + if o.cls = 2 then 1 else 0 } := by
  cases o <;> rfl

theorem Tally.addSource_eq (s : Source) : t.addSource s = { t with
    manual := t.manual + if s = .manual then 1 else 0 } := by
  cases s <;> rfl

variable (info : HideInfo) (o : StampOutcome)

/-- At 65535 hides the tally stands still (R92). -/
theorem Tally.addHide_full (h : 65535 ≤ t.hides) : t.addHide info o = t := if_pos h

/-- Below that a hide is counted, count by count (R91). -/
theorem Tally.addHide_of_lt (h : t.hides < 65535) : t.addHide info o = { t with
    hides := t.hides + 1
    totalUnits := satAdd max32 t.totalUnits info.units
    stamped := t.stamped + if o = .stamped then 1 else 0
    unstamped := t.unstamped + if o.cls = 2 then 1 else 0
    bands := (t.addGrade info.grade).bands
    small := t.small + if info.grade = .small then 1 else 0
    oversize := t.oversize + if info.grade = .oversize then 1 else 0
    review := t.review + if info.grade = .review then 1 else 0
    ungraded := t.ungraded + if info.grade = .ungraded then 1 else 0
    manual := t.manual + if info.source = .manual then 1 else 0 } := by
  rw [Tally.addHide, if_neg (Nat.not_le.2 h), Tally.addSource_eq, Tally.addOutcome_eq, Tally.addGrade_eq]

theorem Tally.addHide_gradeSum (hg : ∀ k, info.grade = .band k → k < t.bands.length) (hsum : t.gradeSum = t.hides) :
    (t.addHide info o).gradeSum = (t.addHide info o).hides := by
  by_cases h : t.hides < 65535
  · have hgrade : (t.addHide info o).gradeSum = (t.addGrade info.grade).gradeSum := by
      rw [Tally.addHide_of_lt t info o h, Tally.addGrade_eq]; rfl
    rw [hgrade, Tally.addGrade_gradeSum t _ hg, Tally.addHide_of_lt t info o h, hsum]
  · rw [Tally.addHide_full t info o (Nat.not_lt.1 h)]; exact hsum

theorem Tally.addHide_fits (hfits : t.fits) : (t.addHide info o).fits := by
  by_cases h : t.hides < 65535
  · have hone : ∀ c : Prop, [Decidable c] → (if c then 1 else 0 : Nat) ≤ 1 := fun c _ => by split <;> omega
    obtain ⟨-, hbirths, -, hstamped, hunstamped, hmanual, hmarks⟩ := hfits
    rw [Tally.addHide_of_lt t info o h]
    exact ⟨h, hbirths, Nat.min_le_left _ _, Nat.add_le_add hstamped (hone _), Nat.add_le_add hunstamped (hone _),
      Nat.add_le_add hmanual (hone _), hmarks⟩
  · rw [Tally.addHide_full t info o (Nat.not_lt.1 h)]; exact hfits

end Tallies

/-- Settles O36: a release from the two lots by id, the tally count by count. -/
theorem tallyAddsUp : Obligations.TallyAddsUp := by
  refine ⟨fun p info o strike hne => ?release, fun t info o hbands hband => ?tally⟩
  case release => exact congrArg (Part.emit · _) (p.modifyLot_eq info.lot _ hne)
  case tally =>
    have hgrade : ∀ k, info.grade = .band k → k < t.bands.length := fun k hk => hbands ▸ hband k hk
    refine ⟨t.addHide_gradeSum info o hgrade, t.addHide_fits info o, fun h => t.addHide_full info o h.ge, fun h => ?_⟩
    rw [t.addHide_of_lt info o h]
    exact ⟨rfl, rfl, rfl, rfl, t.addGrade_bands_getD _ hgrade, rfl, rfl, rfl, rfl, rfl, rfl, rfl⟩

/-! ### The outgoing record queue (R93, R187) -/

section Outgoing

variable (p : Part)

/-- The newest record that is no LOT record: behind it only LOT records wait. -/
theorem takeNewestNonLot_eq_some {pre lots : List Record} {old : Record} (hold : old.isLot = false)
    (hlots : ∀ x ∈ lots, x.isLot = true) : takeNewestNonLot (pre ++ old :: lots) = some (old, pre ++ lots) := by
  have hrev : (pre ++ old :: lots).reverse.span Record.isLot = (lots.reverse, old :: pre.reverse) := by
    have hstop : ¬ old.isLot = true := by simp [hold]
    have hall : ∀ x ∈ lots.reverse, x.isLot = true := fun x hx => hlots x (List.mem_reverse.1 hx)
    rw [List.span_eq_takeWhile_dropWhile, List.reverse_append, List.reverse_cons, List.append_assoc, List.singleton_append,
      List.takeWhile_append_of_pos hall, List.dropWhile_append_of_pos hall, List.takeWhile_cons_of_neg hstop,
      List.dropWhile_cons_of_neg hstop, List.append_nil]
  unfold takeNewestNonLot
  rw [hrev]
  simp

theorem takeNewestNonLot_eq_none {q : List Record} (h : ∀ x ∈ q, x.isLot = true) : takeNewestNonLot q = none := by
  have hall : ∀ x ∈ q.reverse, x.isLot = true := fun x hx => h x (List.mem_reverse.1 hx)
  unfold takeNewestNonLot
  rw [List.span_eq_takeWhile_dropWhile, List.dropWhile_eq_nil_iff.2 hall]

variable {p} in
/-- Without a free place a record that is no LOT record is dropped. -/
theorem Part.emit_full {r : Record} (hfull : 8 ≤ p.recorder.outgoing.length) (hr : r.isLot = false) :
    p.emit r = p.dropRecord r := by
  rw [Part.emit, if_neg (Nat.not_lt.2 hfull), hr, if_neg (by simp)]

variable {p} in
/-- Without a free place a LOT record displaces the newest record that is none, which is dropped. -/
theorem Part.emit_displaces {r old : Record} {rest : List Record} (hfull : 8 ≤ p.recorder.outgoing.length)
    (hr : r.isLot = true) (hnewest : takeNewestNonLot p.recorder.outgoing = some (old, rest)) :
    p.emit r = ({ p with recorder.outgoing := rest ++ [r] } : Part).dropRecord old := by
  rw [Part.emit, if_neg (Nat.not_lt.2 hfull), hr, if_pos rfl, hnewest]

variable {p} in
/-- Where only LOT records wait it is dropped itself. -/
theorem Part.emit_lot_dropped {r : Record} (hfull : 8 ≤ p.recorder.outgoing.length) (hr : r.isLot = true)
    (hnone : takeNewestNonLot p.recorder.outgoing = none) : p.emit r = p.dropRecord r := by
  rw [Part.emit, if_neg (Nat.not_lt.2 hfull), hr, if_pos rfl, hnone]

/-- The lot that a record names for RECORDS_DROPPED (R93): the OPEN one for an EVENT, none for a LOT record. -/
def Part.blamedLot : Record → Option Half
  | .hide info _ _ => some info.lot
  | .mark _ _ _ _ _ lot => some lot
  | .event _ _ _ => some p.lots.openLot.id
  | .lot _ => none

theorem Part.dropRecord_of_blamed {r : Record} {id : Half} (h : p.blamedLot r = some id) :
    (p.dropRecord r).lots = (p.modifyLot id (fun l => { l with recordsDropped := true })).lots := by
  unfold Part.dropRecord Part.flagDropped Part.modifyLot
  cases r with
  | lot => cases h
  | hide | mark | event => cases h; dsimp only [Part.mark]; split <;> rfl

theorem Part.dropRecord_lot {r : Record} (hr : r.isLot = true) : (p.dropRecord r).lots = p.lots := by
  cases r with
  | lot => rfl
  | hide | mark | event => cases hr

theorem Part.dropRecord_dirty (r : Record) : (p.dropRecord r).dirty = insertRising wRecordsDropped p.dirty := by
  unfold Part.dropRecord
  cases r <;> simp

theorem Part.flagDropped_openTally (id : Half) : (p.flagDropped id).lots.openLot.tally = p.lots.openLot.tally := by
  unfold Part.flagDropped; split <;> rfl

theorem Part.dropRecord_openTally (r : Record) : (p.dropRecord r).lots.openLot.tally = p.lots.openLot.tally := by
  unfold Part.dropRecord; cases r <;> simp [Part.flagDropped_openTally]

/-- RECORDS_DROPPED of a lot after a drop that is charged to lot `id`. -/
theorem Lot.onId_recordsDropped (l : Lot) (id : Half) : l.onId id (fun l => { l with recordsDropped := true }) =
    { l with recordsDropped := l.recordsDropped || decide (l.id = id) } := by
  unfold Lot.onId
  by_cases h : l.id = id <;> simp [h]

end Outgoing

/-- Settles O58: the three ways of `Part.emit`, and the flag of a drop on each lot by id. -/
theorem outgoingRecordQueue : Obligations.OutgoingRecordQueue := by
  intro p r
  refine ⟨p.emit_of_lt r, Part.emit_full, fun hfull hr => ⟨fun pre old lots hq hold hlots => ?displaces, fun hall => ?allLots⟩,
    p.dropRecord_recorder r, ?dirty, fun id hid => ?flagged, p.dropRecord_openTally r, p.dropRecord_lot⟩
  case displaces => exact Part.emit_displaces hfull hr (by rw [hq, takeNewestNonLot_eq_some hold hlots])
  case allLots => exact Part.emit_lot_dropped hfull hr (takeNewestNonLot_eq_none hall)
  case dirty => rw [Part.dropRecord_dirty]; exact (mem_insertRising _ _ _).2 (.inl rfl)
  case flagged =>
    have hblamed : p.blamedLot r = some id := by cases r <;> exact hid
    rw [p.dropRecord_of_blamed hblamed]
    refine ⟨?_, fun c hc hne => ⟨_, p.modifyLot_closing id _ hc hne, c.onId_recordsDropped id⟩⟩
    rw [Part.modifyLot_openLot, Lot.onId_recordsDropped]

end Sys2Proof.Machine

/-! ## CLEAR_STICKY, an unknown code, MANUAL_ENTER and LOT_NEXT -/

namespace Sys2Proof.Machine

/-! ### CLEAR_STICKY (R98) and an unknown code (R177) -/

section Sticky

variable (p : Part)

theorem Part.clearSticky_lots : p.clearSticky.lots = { p.lots with sticky := 0, markDropSticky := false } := by
  unfold Part.clearSticky
  split
  · next h =>
    obtain ⟨hsticky, hdrop⟩ : p.lots.sticky = 0 ∧ p.lots.markDropSticky = false := by simpa using h
    rw [← hsticky, ← hdrop]
  · rfl

/-- A flag that goes makes its status word dirty. -/
theorem Part.clearSticky_dirty (h : p.lots.sticky ≠ 0 ∨ p.lots.markDropSticky = true) :
    p.clearSticky.dirty = insertRising wSticky p.dirty := by
  unfold Part.clearSticky
  rw [if_neg (by simpa [or_iff_not_imp_left] using h)]
  rfl

/-- A command's answer takes no word out of the dirty set. -/
theorem Part.answer_dirty_subset (tag : Half) (code : BitVec 4) (r : ResultCode) : p.dirty ⊆ (p.answer tag code r).dirty := by
  unfold Part.answer Part.setResult
  split
  · exact List.Subset.refl _
  · exact fun _ hx => (mem_insertRising _ _ _).2 (.inr hx)

end Sticky

theorem exec_unknownCommand_of_unknown {code : BitVec 4} (tag : Half) (s : State) (h : code = 0 ∨ 8 ≤ code.toNat) :
    exec (.unknownCommand code tag) s = .next { s with part := s.part.answer tag code .unknown } :=
  if_pos (by simpa [isUnknownCode] using h)

/-- Settles O57: the flags go before the answer, which keeps the word dirty; an unknown code is answered and nothing else. -/
theorem clearStickyAndUnknown : Obligations.ClearStickyAndUnknown := by
  refine fun tag s => ⟨⟨_, rfl, rfl, ?lots, ?setup, ?recorder, ?tracker, ?head, fun h => ?dirty⟩,
    fun code hcode => ⟨exec_unknownCommand_of_unknown tag s hcode, s.part.answer_setup tag code .unknown⟩⟩
  case lots => exact (s.part.clearSticky.answer_lots tag 4 .done).trans s.part.clearSticky_lots
  case setup => exact (s.part.clearSticky.answer_setup tag 4 .done).trans (by rw [Part.clearSticky_setup])
  case recorder => exact (s.part.clearSticky.answer_recorder tag 4 .done).trans s.part.clearSticky_recorder
  case tracker => exact (s.part.clearSticky.answer_tracker tag 4 .done).trans s.part.clearSticky_tracker
  case head => exact (s.part.clearSticky.answer_head tag 4 .done).trans s.part.clearSticky_head
  case dirty =>
    refine s.part.clearSticky.answer_dirty_subset tag 4 .done ?_
    rw [Part.clearSticky_dirty _ h]
    exact (mem_insertRising _ _ _).2 (.inl rfl)

/-! ### MANUAL_ENTER (R95, R96) -/

section Manual

variable (tag : Half) (s : State)

theorem manualRefused_iff (units : Nat) (a : Word) : manualRefused units (argOverride a) = true ↔
    units = 0 ∨ (a.getLsbD 8 = true ∧ 7 < (a.extractLsb' 0 8).toNat) := by
  unfold manualRefused argOverride
  cases a.getLsbD 8 <;> simp

/-- The manual hide that the held arguments spell, its number drawn (R96). -/
def Part.manualEntered (p : Part) : HideInfo :=
  p.drawNumber.2.manualInfo p.drawNumber.1 (argLow p.setup.arg1).toNat (argOverride p.setup.arg2)

theorem Part.manualEnter_refused (p : Part)
    (h : manualRefused (argLow p.setup.arg1).toNat (argOverride p.setup.arg2) = true) :
    p.manualEnter tag = p.answer tag 3 .range := if_pos h

theorem Part.manualEnter_taken (p : Part)
    (h : ¬ manualRefused (argLow p.setup.arg1).toNat (argOverride p.setup.arg2) = true) :
    p.manualEnter tag = (p.drawNumber.2.leaveUnstamped p.manualEntered .manual).answer tag 3 .done := if_neg h

/-- A test for a lot that is not the CLOSING one finds nothing due (R89). -/
theorem Part.closingTestFor_of_ne {p : Part} {id : Half} (h : ∀ c, p.lots.closing = some c → c.id ≠ id) :
    p.closingTestFor id = p := by
  unfold Part.closingTestFor
  split
  · next l hl => exact if_neg (h l hl)
  · rfl

/-- An UNSTAMPED hide of the OPEN lot tallied there and its record put into the queue. -/
def Part.countUnstamped (p : Part) (info : HideInfo) (r : UnstampedReason) : Part :=
  { p with
    lots.openLot.tally := p.lots.openLot.tally.addHide info (.unstamped r)
    recorder.outgoing := p.recorder.outgoing ++ [.hide info (.unstamped r) none] }

/-- With a free place an UNSTAMPED hide of the OPEN lot is just that: no lot closes at it. -/
theorem Part.leaveUnstamped_of_openLot {p : Part} {info : HideInfo} (hlot : info.lot = p.lots.openLot.id)
    (hroom : p.recorder.outgoing.length < 8) (hne : ∀ c, p.lots.closing = some c → c.id ≠ p.lots.openLot.id)
    (r : UnstampedReason) : p.leaveUnstamped info r = p.countUnstamped info r := by
  have hreleased : p.release info (.unstamped r) none = p.countUnstamped info r := by
    rw [Part.release, hlot, Part.modifyLot_open]
    exact Part.emit_of_lt _ _ hroom
  have htest : (p.countUnstamped info r).closingTestFor info.lot = p.countUnstamped info r :=
    Part.closingTestFor_of_ne (hlot ▸ hne)
  rw [Part.leaveUnstamped, hreleased, htest]

theorem exec_manualEnter_refused (h : manualRefused (argLow s.part.setup.arg1).toNat (argOverride s.part.setup.arg2) = true) :
    exec (.manualEnter tag) s = .next { s with part := s.part.answer tag 3 .range } := by
  rw [← Part.manualEnter_refused tag s.part h]; rfl

/-- R96: the number is drawn, then the hide is left in the OPEN lot. -/
theorem exec_manualEnter_taken (h : ¬ manualRefused (argLow s.part.setup.arg1).toNat (argOverride s.part.setup.arg2) = true)
    (hroom : s.part.recorder.outgoing.length < 8)
    (hne : ∀ c, s.part.lots.closing = some c → c.id ≠ s.part.lots.openLot.id) :
    exec (.manualEnter tag) s = .next { s with
      part := (s.part.drawNumber.2.countUnstamped s.part.manualEntered .manual).answer tag 3 .done } := by
  have hleft : s.part.drawNumber.2.leaveUnstamped s.part.manualEntered .manual =
      s.part.drawNumber.2.countUnstamped s.part.manualEntered .manual :=
    Part.leaveUnstamped_of_openLot rfl (by simpa using hroom) (by simpa using hne) .manual
  rw [← hleft, ← Part.manualEnter_taken tag s.part h]
  rfl

end Manual

/-- Settles O34: the refusal, and the taken entry as a drawn number and an UNSTAMPED hide of the OPEN lot. -/
theorem manualEnter : Obligations.ManualEnter := by
  intro tag s units band ovr
  refine ⟨fun h => exec_manualEnter_refused tag s ((manualRefused_iff _ _).2 h), fun hunits hband hroom hhides hne => ?_⟩
  have htaken : ¬ manualRefused (argLow s.part.setup.arg1).toNat (argOverride s.part.setup.arg2) = true := by
    rw [manualRefused_iff]
    exact not_or.2 ⟨hunits, fun h => absurd (hband h.1) (Nat.not_le.2 h.2)⟩
  have htally : (s.part.drawNumber.2.countUnstamped s.part.manualEntered .manual).lots.openLot.tally =
      s.part.lots.openLot.tally.addHide s.part.manualEntered (.unstamped .manual) := rfl
  rw [Tally.addHide_of_lt _ _ _ hhides] at htally
  refine ⟨_, s.part.manualEntered, exec_manualEnter_taken tag s htaken hroom hne, rfl, ?_⟩
  rw [Part.answer_recorder, Part.answer_lots, Part.answer_tracker, Part.answer_sched, Part.answer_head, Part.answer_belt,
    Part.answer_intake, Part.answer_setup, htally]
  and_intros <;> rfl

end Sys2Proof.Machine

/-! ## LOT_NEXT and the closing test -/

namespace Sys2Proof.Machine

/-! ### What records and counts leave of the lot and mark unit

A record may set RECORDS_DROPPED and a count is a lot's: the rest of the unit stays. -/

/-- The two units differ in their OPEN and CLOSING lots at most. -/
def LotUnit.SameButLots (u v : LotUnit) : Prop := ∃ o c, v = { u with openLot := o, closing := c }

section SameButLots

theorem LotUnit.SameButLots.refl (u : LotUnit) : u.SameButLots u := ⟨_, _, rfl⟩

theorem LotUnit.SameButLots.trans {u v w : LotUnit} (h : u.SameButLots v) (h' : v.SameButLots w) : u.SameButLots w := by
  obtain ⟨o, c, rfl⟩ := h
  obtain ⟨o', c', rfl⟩ := h'
  exact ⟨o', c', rfl⟩

variable (p : Part)

theorem Part.modifyLot_sameButLots (id : Half) (f : Lot → Lot) : p.lots.SameButLots (p.modifyLot id f).lots := by
  unfold Part.modifyLot
  split <;> exact ⟨_, _, rfl⟩

theorem Part.dropRecord_sameButLots (r : Record) : p.lots.SameButLots (p.dropRecord r).lots := by
  cases hr : p.blamedLot r with
  | some id => rw [p.dropRecord_of_blamed hr]; exact p.modifyLot_sameButLots _ _
  | none =>
    have hlot : r.isLot = true := by
      cases r with
      | lot => rfl
      | hide | mark | event => cases hr
    rw [p.dropRecord_lot hlot]
    exact .refl _

theorem Part.emit_sameButLots (r : Record) : p.lots.SameButLots (p.emit r).lots := by
  unfold Part.emit
  split
  · exact .refl _
  · split
    · split
      · next old rest _ => exact Part.dropRecord_sameButLots { p with recorder.outgoing := rest ++ [r] } old
      · exact p.dropRecord_sameButLots r
    · exact p.dropRecord_sameButLots r

end SameButLots

/-! ### What holds a lot, and its closing (R88, R89, R94) -/

section ClosingTest

variable (p : Part)

theorem Part.lotHeld_iff (id : Half) :
    p.lotHeld id = true ↔ (∃ h ∈ p.openHides, h.lot = id) ∨ ∃ j ∈ p.jobs, j.info.lot = id := by
  simp [Part.lotHeld]

/-- What holds a lot is read off the hide table and the job queue. -/
theorem Part.lotHeld_congr {p q : Part} (ht : q.tracker = p.tracker) (hs : q.sched = p.sched) (id : Half) :
    q.lotHeld id = p.lotHeld id := by
  simp only [Part.lotHeld, Part.openHides, Part.jobs, ht, hs]

theorem Part.closeLotIfEmpty_of_none (h : p.lots.closing = none) : p.closeLotIfEmpty = p := by
  unfold Part.closeLotIfEmpty; rw [h]

variable {l : Lot}

theorem Part.closeLotIfEmpty_of_held (hl : p.lots.closing = some l) (h : p.lotHeld l.id = true) : p.closeLotIfEmpty = p := by
  unfold Part.closeLotIfEmpty; rw [hl]; exact if_pos h

/-- The CLOSING lot has closed, with its LOT record in the queue. -/
def Part.lotClosed (l : Lot) : Part :=
  ({ p with
    lots.closing := none
    recorder.outgoing := p.recorder.outgoing ++ [.lot l] } : Part).mark wClosingLot

theorem Part.closeLotIfEmpty_of_free (hl : p.lots.closing = some l) (h : p.lotHeld l.id = false)
    (hroom : p.recorder.outgoing.length < 8) : p.closeLotIfEmpty = p.lotClosed l := by
  unfold Part.closeLotIfEmpty
  rw [hl]
  exact (if_neg (by simp [h])).trans (Part.emit_of_lt _ _ hroom)

theorem Part.closeLotIfEmpty_closing (hl : p.lots.closing = some l) (h : p.lotHeld l.id = false) :
    p.closeLotIfEmpty.lots.closing = none := by
  unfold Part.closeLotIfEmpty
  rw [hl]
  dsimp only
  rw [if_neg (by simp [h]), Part.emit_closing_eq_none]
  rfl

theorem Part.closeLotIfEmpty_sameButLots : p.lots.SameButLots p.closeLotIfEmpty.lots := by
  unfold Part.closeLotIfEmpty
  split
  · exact .refl _
  · split
    · exact .refl _
    · exact LotUnit.SameButLots.trans ⟨p.lots.openLot, none, rfl⟩ (Part.emit_sameButLots _ _)

/-! ### The pack transition that waits (R88) -/

theorem Part.packDue_iff : p.packDue = true ↔
    p.setup.unguarded.packSize ≠ 0 ∧ p.setup.unguarded.packSize ≤ p.lots.packCounter := by
  simp [Part.packDue]

theorem Part.takePackPending_of_not_due (h : p.lots.packPending = false ∨ ¬ p.packDue = true) :
    p.takePackPending = { p with lots.packPending := false } := by
  unfold Part.takePackPending
  split
  · next hpending => exact if_neg (h.resolve_left (by simp [hpending]))
  · next hpending => rw [← Bool.eq_false_iff.2 hpending]

theorem Part.takePackPending_of_due (hpending : p.lots.packPending = true) (h : p.packDue = true) :
    p.takePackPending = ({ p with lots.packPending := false } : Part).packTransition := by
  unfold Part.takePackPending
  rw [if_pos hpending]
  exact if_pos h

/-! ### The closing test (R89) -/

theorem Part.closingTest_of_pass (h : p.tracker.pass.isSome = true) : p.closingTest = p := if_pos (by rw [h]; rfl)

theorem Part.closingTest_of_held (hl : p.lots.closing = some l) (h : p.lotHeld l.id = true) : p.closingTest = p := by
  unfold Part.closingTest
  dsimp only
  rw [p.closeLotIfEmpty_of_held hl h, hl]
  simp

/-- A lot that nothing holds closes, and a pack transition it made wait is made with a test of its own. -/
theorem Part.closingTest_of_free (hpass : p.tracker.pass = none) (hl : p.lots.closing = some l)
    (h : p.lotHeld l.id = false) : p.closingTest = p.closeLotIfEmpty.takePackPending.closeLotIfEmpty := by
  unfold Part.closingTest
  dsimp only
  rw [if_neg (by simp [hpass, hl]), if_pos (by rw [p.closeLotIfEmpty_closing hl h]; rfl)]

/-- Without a pack transition due the test leaves the setup page. -/
theorem Part.closingTest_setup_of_not_due (h : ¬ p.packDue = true) : p.closingTest.setup = p.setup := by
  unfold Part.closingTest
  dsimp only
  split
  · rfl
  · split
    · have hdue : ¬ p.closeLotIfEmpty.packDue = true := by
        obtain ⟨o, c, hlots⟩ := p.closeLotIfEmpty_sameButLots
        rw [Part.packDue_iff] at h ⊢
        rwa [hlots, Part.closeLotIfEmpty_setup]
      rw [Part.takePackPending_of_not_due _ (.inr hdue), Part.closeLotIfEmpty_setup]
      exact p.closeLotIfEmpty_setup
    · exact p.closeLotIfEmpty_setup

/-- The OPEN lot as a pack transition makes it CLOSING (R88). -/
def Part.packedLot : Lot := { p.lots.openLot with packAuto := true }

/-- The part once the CLOSING lot `l` has closed and the pack transition that waited for it is made (R88). -/
def Part.packedAfter (l : Lot) : Part :=
  ({ p.lotClosed l with
    lots.packPending := false
    lots.closing := some p.packedLot
    lots.openLot := Lot.fresh (p.lots.openLot.id + 1) (p.tracker.rowIndex + 1)
    lots.packCounter := 0
    setup.unguarded.windows := p.setup.unguarded.windows.map Window.endOfLot
    dirty := insertRising wClosingLot (insertRising wOpenLot (p.lotClosed l).dirty) } : Part)

section Closes

variable (hpass : p.tracker.pass = none) (hl : p.lots.closing = some l) (hfree : p.lotHeld l.id = false)
include hpass hl hfree

theorem Part.closingTest_closes (hroom : p.recorder.outgoing.length < 8)
    (hdue : p.lots.packPending = false ∨ ¬ p.packDue = true) :
    p.closingTest = { p.lotClosed l with lots.packPending := false } := by
  have hwaits : (p.lotClosed l).takePackPending = { p.lotClosed l with lots.packPending := false } :=
    Part.takePackPending_of_not_due _ hdue
  rw [p.closingTest_of_free hpass hl hfree, p.closeLotIfEmpty_of_free hl hfree hroom, hwaits]
  exact Part.closeLotIfEmpty_of_none _ rfl

theorem Part.closingTest_packs (hroom : p.recorder.outgoing.length < 8) (hpending : p.lots.packPending = true)
    (hdue : p.packDue = true) : p.closingTest = (p.packedAfter l).closeLotIfEmpty := by
  have hmade : (p.lotClosed l).takePackPending = p.packedAfter l :=
    ((p.lotClosed l).takePackPending_of_due hpending hdue).trans (Part.packTransition_eq _)
  rw [p.closingTest_of_free hpass hl hfree, p.closeLotIfEmpty_of_free hl hfree hroom, hmade]

end Closes

end ClosingTest

/-! ### LOT_NEXT (R87) -/

section LotNext

variable (tag : Half) (s : State)

theorem exec_lotNext_busy (h : s.part.lots.closing.isSome = true ∨ argLow s.part.setup.arg1 = s.part.lots.openLot.id) :
    exec (.lotNext tag) s = .next { s with part := s.part.answer tag 2 .busy } := by
  have hbusy : s.part.lotNext tag = s.part.answer tag 2 .busy := if_pos h
  rw [← hbusy]
  rfl

theorem exec_lotNext_taken (hclosing : s.part.lots.closing = none) (hid : argLow s.part.setup.arg1 ≠ s.part.lots.openLot.id) :
    exec (.lotNext tag) s = .next { s with
      part := ((s.part.lotTransition (argLow s.part.setup.arg1) false).closingTest).answer tag 2 .done } := by
  have htaken : s.part.lotNext tag =
      ((s.part.lotTransition (argLow s.part.setup.arg1) false).closingTest).answer tag 2 .done :=
    if_neg (by simp [hclosing, hid])
  rw [← htaken]
  rfl

variable (p : Part) (id : Half)

/-- The lot that LOT_NEXT makes CLOSING is the OPEN lot as it stands. -/
theorem Part.lotTransition_closing : (p.lotTransition id false).lots.closing = some p.lots.openLot := by
  simp [Part.lotTransition]

/-- The pack counter is 0 after a transition, so no pack transition is due (R87, R88). -/
theorem Part.lotTransition_not_due (b : Bool) : ¬ (p.lotTransition id b).packDue = true := by
  rw [Part.packDue_iff]
  rintro ⟨hsize, hle⟩
  exact hsize (Nat.le_zero.1 hle)

theorem Part.lotTransition_lotHeld (b : Bool) (l : Half) : (p.lotTransition id b).lotHeld l = p.lotHeld l :=
  Part.lotHeld_congr (p.lotTransition_tracker id b) (p.lotTransition_sched id b) l

end LotNext

/-- Settles O35: LOT_NEXT as a lot transition and a closing test, and the closing test by what holds the lots. -/
theorem lotNext : Obligations.LotNext := by
  intro tag s id boundary
  refine ⟨exec_lotNext_busy tag s, fun hclosing hid => ?taken, ?test⟩
  case taken =>
    have hsetup := (s.part.lotTransition id false).closingTest_setup_of_not_due (s.part.lotTransition_not_due id false)
    have hold := s.part.lotTransition_closing id
    have hheld := s.part.lotTransition_lotHeld id false s.part.lots.openLot.id
    have hnext : exec (.lotNext tag) s = .next { s with
        part := ((s.part.lotTransition id false).closingTest).answer tag 2 .done } := exec_lotNext_taken tag s hclosing hid
    refine ⟨_, hnext, rfl, ?_⟩
    rw [Part.answer_setup, Part.answer_tracker, Part.answer_intake, Part.answer_head, Part.answer_lots, Part.answer_recorder]
    refine ⟨rfl, by simp, by simp, by simp, by rw [hsetup]; rfl, by rw [hsetup]; rfl, fun hpass => ?_, fun _ h => ?_,
      fun hpass h hpending hroom => ?_⟩
    · rw [Part.closingTest_of_pass _ (by simpa using hpass)]
      exact ⟨rfl, hold, rfl, by simp⟩
    · rw [Part.closingTest_of_held _ hold (hheld.trans h)]
      exact ⟨rfl, hold⟩
    · rw [Part.closingTest_closes _ (by simpa using hpass) hold (hheld.trans h) (by simpa using hroom) (.inl hpending)]
      exact ⟨rfl, rfl, rfl⟩
  case test =>
    intro p due packed next
    refine ⟨p.lotHeld_iff, fun h => h.elim p.closingTest_of_pass Part.closingTest_of_none,
      fun l hpass hl => ⟨p.closingTest_of_held hl, fun hfree hroom => ?_⟩⟩
    have hfirst : p.recorder.outgoing.length < 8 := Nat.lt_succ_of_lt hroom
    have hdirty := (mem_insertRising wClosingLot wClosingLot p.dirty).2 (.inl rfl)
    by_cases hdue : p.lots.packPending = false ∨ ¬ due
    · rw [p.closingTest_closes hpass hl hfree hfirst (hdue.imp_right (mt p.packDue_iff.1))]
      refine ⟨rfl, rfl, hdirty, rfl, fun _ => ⟨rfl, rfl, rfl, rfl⟩, fun hpending h => ?_⟩
      exact absurd hdue (by simp [hpending, h])
    · obtain ⟨hpending, h⟩ : p.lots.packPending = true ∧ due := by simpa [not_or] using hdue
      rw [p.closingTest_packs hpass hl hfree hfirst hpending (p.packDue_iff.2 h)]
      have hpacked := (mem_insertRising wClosingLot wClosingLot (insertRising wOpenLot (p.lotClosed l).dirty)).2 (.inl rfl)
      have hopen : wOpenLot ∈ (p.packedAfter l).dirty :=
        (mem_insertRising _ _ _).2 (.inr ((mem_insertRising _ _ _).2 (.inl rfl)))
      by_cases hheld : p.lotHeld packed.id = true
      · rw [(p.packedAfter l).closeLotIfEmpty_of_held rfl hheld]
        exact ⟨rfl, rfl, hpacked, rfl, fun hno => absurd hno hdue,
          fun _ _ => ⟨rfl, rfl, hopen, fun _ => ⟨rfl, rfl⟩, fun hnot => absurd hheld (by simp [hnot])⟩⟩
      · have hsecond : (p.packedAfter l).recorder.outgoing.length < 8 := by
          simpa [Part.packedAfter, Part.lotClosed] using Nat.succ_lt_succ hroom
        rw [(p.packedAfter l).closeLotIfEmpty_of_free rfl (Bool.eq_false_iff.2 hheld) hsecond]
        exact ⟨rfl, rfl, (mem_insertRising _ _ _).2 (.inl rfl), rfl, fun hno => absurd hno hdue,
          fun _ _ => ⟨rfl, rfl, (mem_insertRising _ _ _).2 (.inr hopen), fun h => absurd h hheld,
            fun _ => ⟨rfl, List.append_assoc _ _ _⟩⟩⟩

end Sys2Proof.Machine

/-! ## Marks: the queue and the resolution -/

namespace Sys2Proof.Machine

/-! ### What a mark's record leaves of the lot and mark unit (R106) -/

section MarkRecord

variable (p : Part)

theorem Part.markRecord_sameButLots (w : Nat) (d row : Word) (b : Option Half) (a : Bool) (l : Half) :
    p.lots.SameButLots (p.markRecord w d row b a l).lots :=
  (p.modifyLot_sameButLots _ _).trans (Part.emit_sameButLots _ _)

theorem Part.markRecord_outgoing (w : Nat) (d row : Word) (b : Option Half) (a : Bool) (l : Half)
    (hroom : p.recorder.outgoing.length < 8) :
    (p.markRecord w d row b a l).recorder.outgoing = p.recorder.outgoing ++ [.mark w d row b a l] := by
  rw [Part.markRecord, Part.emit_of_lt _ _ (by simpa using hroom)]
  simp

theorem Part.resolveMark_of_some {m : Mark} {r : RecentHide} (h : bestRecent (p.recentCandidates m.target) = some r) :
    p.resolveMark m = p.markRecord m.window m.data m.hitRow (some r.number)
      (decide (2 ≤ (p.recentCandidates m.target).length)) r.lot := by
  unfold Part.resolveMark; dsimp only; rw [h]

theorem Part.resolveMark_of_none {m : Mark} (h : bestRecent (p.recentCandidates m.target) = none) :
    p.resolveMark m = p.markRecord m.window m.data m.hitRow none false m.hitLot := by
  unfold Part.resolveMark; dsimp only; rw [h]

theorem Part.resolveMark_sameButLots (m : Mark) : p.lots.SameButLots (p.resolveMark m).lots := by
  cases h : bestRecent (p.recentCandidates m.target) with
  | none => rw [p.resolveMark_of_none h]; exact p.markRecord_sameButLots _ _ _ _ _ _
  | some r => rw [p.resolveMark_of_some h]; exact p.markRecord_sameButLots _ _ _ _ _ _

end MarkRecord

/-! ### The mark queue (R103, R104) -/

section MarkQueue

variable (p : Part) (m : Mark)

theorem Part.dropMark_lots :
    p.dropMark.lots = { p.lots with marksDropped := p.lots.marksDropped + 1, markDropSticky := true } := by
  unfold Part.dropMark
  dsimp only
  split
  · next h =>
    have hset : p.lots.markDropSticky = true := h
    rw [← hset]; rfl
  · rfl

theorem Part.dropMark_dirty : p.dropMark.dirty =
    if p.lots.markDropSticky then insertRising wMarksDropped p.dirty
    else insertRising wSticky (insertRising wMarksDropped p.dirty) := by
  unfold Part.dropMark
  dsimp only [Part.mark]
  cases p.lots.markDropSticky <;> rfl

theorem Part.placeMark_waits (h : p.hasOpenCandidate m.target = true) (hroom : p.lots.markQueue.length < 16) :
    p.placeMark m = { p with lots.markQueue := p.lots.markQueue ++ [m] } := by
  rw [Part.placeMark, if_pos h, if_pos hroom]

theorem Part.placeMark_drops (h : p.hasOpenCandidate m.target = true) (hfull : 16 ≤ p.lots.markQueue.length) :
    p.placeMark m = p.dropMark := by
  rw [Part.placeMark, if_pos h, if_neg (Nat.not_lt.2 hfull)]

theorem Part.placeMark_resolves (h : p.hasOpenCandidate m.target = false) : p.placeMark m = p.resolveMark m := by
  rw [Part.placeMark, h, if_neg (by simp)]

/-- Re-examination keeps the marks that have an open candidate, in their order, behind those it has kept before. -/
theorem Part.reexamine_markQueue (ms : List Mark) : (p.reexamine ms).lots.markQueue =
    p.lots.markQueue ++ ms.filter (fun m => p.hasOpenCandidate m.target) := by
  induction ms generalizing p with
  | nil => exact (List.append_nil _).symm
  | cons m ms ih =>
    unfold Part.reexamine
    cases h : p.hasOpenCandidate m.target with
    | true =>
      have hkept : (m :: ms).filter (fun m => p.hasOpenCandidate m.target) =
          m :: ms.filter (fun m => p.hasOpenCandidate m.target) := List.filter_cons_of_pos h
      rw [if_pos rfl, hkept]
      exact (ih { p with lots.markQueue := p.lots.markQueue ++ [m] }).trans (List.append_assoc _ [m] _)
    | false =>
      have hgone : (m :: ms).filter (fun m => p.hasOpenCandidate m.target) =
          ms.filter (fun m => p.hasOpenCandidate m.target) := List.filter_cons_of_neg (by simp [h])
      have hsame : ∀ t, (p.resolveMark m).hasOpenCandidate t = p.hasOpenCandidate t :=
        Part.hasOpenCandidate_congr (by simp)
      rw [if_neg (by simp), ih, hgone, Part.resolveMark_markQueue]
      simp only [hsame]

theorem Part.reexamineMarks_markQueue :
    p.reexamineMarks.lots.markQueue = p.lots.markQueue.filter (fun m => p.hasOpenCandidate m.target) :=
  Part.reexamine_markQueue { p with lots.markQueue := [] } p.lots.markQueue

end MarkQueue

/-- Settles O38: the three ways of a raised mark, the re-examination, and the empty queue after power-on reset. -/
theorem markQueue : Obligations.MarkQueue := by
  refine ⟨fun p m => ⟨p.placeMark_waits m, fun h hfull => ?dropped, fun h => ?resolved⟩, Part.reexamineMarks_markQueue,
    fun straps s => ⟨_, rfl, rfl⟩⟩
  case dropped =>
    rw [p.placeMark_drops m h hfull]
    refine ⟨p.dropMark_lots, Part.dropMark_recorder p, ?_, fun hsticky => ?_⟩
    · rw [Part.dropMark_dirty]
      split <;> simp [mem_insertRising]
    · rw [Part.dropMark_dirty, hsticky]
      exact (mem_insertRising _ _ _).2 (.inl rfl)
  case resolved =>
    obtain ⟨o, c, hlots⟩ := p.resolveMark_sameButLots m
    rw [p.placeMark_resolves m h, hlots]
    exact ⟨rfl, rfl, rfl⟩

/-! ### The recent hide a mark is bound to (R101, R102) -/

section Binding

/-- A choice of the lower of two, made one after another, ends in a lowest element. -/
theorem foldl_least {α : Type} {le : α → α → Bool} {P : α → Prop} (h : Ranks le P) (l : List α) (e : α)
    (hP : ∀ a ∈ e :: l, P a) : l.foldl (fun best x => if le best x then best else x) e ∈ e :: l ∧
      ∀ a ∈ e :: l, le (l.foldl (fun best x => if le best x then best else x) e) a = true := by
  induction l generalizing e with
  | nil =>
    have hself : le e e = true := (h.total e e (hP e (by simp)) (hP e (by simp))).elim id id
    simpa using hself
  | cons c l ih =>
    have he : P e := hP e (by simp)
    have hc : P c := hP c (by simp)
    have hpick : ∃ b, (if le e c then e else c) = b ∧ (b = e ∨ b = c) ∧ le b e = true ∧ le b c = true := by
      cases hle : le e c with
      | true => exact ⟨e, if_pos rfl, .inl rfl, (h.total e e he he).elim id id, hle⟩
      | false => exact ⟨c, if_neg (by simp), .inr rfl, (h.total e c he hc).resolve_left (by simp [hle]),
          (h.total c c hc hc).elim id id⟩
    obtain ⟨b, hb, hmem, hbe, hbc⟩ := hpick
    have hPb : P b := hmem.elim (· ▸ he) (· ▸ hc)
    have hrest : ∀ a ∈ b :: l, P a := List.forall_mem_cons.2 ⟨hPb, fun a ha => hP a (by simp [ha])⟩
    obtain ⟨hin, hleast⟩ := ih b hrest
    rw [List.foldl_cons, hb]
    have hPbest := hrest _ hin
    have hbest := hleast b (by simp)
    refine ⟨?_, fun a ha => ?_⟩
    · rcases List.mem_cons.1 hin with hin | hin
      · rw [hin]; rcases hmem with rfl | rfl <;> simp
      · simp [hin]
    · rcases List.mem_cons.1 ha with rfl | ha
      · exact h.trans _ _ _ hPbest hPb he hbest hbe
      · rcases List.mem_cons.1 ha with rfl | ha
        · exact h.trans _ _ _ hPbest hPb hc hbest hbc
        · exact hleast a (by simp [ha])

/-- The recent hide covered the row (R101). -/
@[reducible] def RecentHide.Covered (t : Word) (r : RecentHide) : Prop :=
  (t - r.firstRow).toNat < 2147483648 ∧ (r.lastRow - t).toNat < 2147483648

theorem Part.recentCandidates_eq (p : Part) (t : Word) :
    p.recentCandidates t = p.lots.recent.filter (fun r => decide (r.Covered t)) :=
  List.filter_congr fun _ _ => (Bool.decide_and _ _).symm

theorem Part.mem_recentCandidates (p : Part) (t : Word) (r : RecentHide) :
    r ∈ p.recentCandidates t ↔ r ∈ p.lots.recent ∧ r.Covered t := by
  rw [Part.recentCandidates_eq, List.mem_filter, decide_eq_true_iff]

/-- Among hides that covered a row the order of R102 is by the distance of the first row from it. -/
theorem RecentHide.le_iff {t : Word} {a b : RecentHide} (ha : a.Covered t) (hb : b.Covered t) :
    a.le b = true ↔ (t - b.firstRow).toNat < (t - a.firstRow).toNat ∨ (b.firstRow = a.firstRow ∧ a.number ≤ b.number) := by
  simp only [RecentHide.le, Bool.or_eq_true, Bool.and_eq_true, decide_eq_true_eq, before_iff_farther ha.1 hb.1,
    eq_comm (a := a.firstRow)]

theorem RecentHide.le_ranks (t : Word) : Ranks RecentHide.le (RecentHide.Covered t) := by
  have hkeys : ∀ a b : RecentHide, a.Covered t → b.Covered t → (a.le b = true ↔
      (t - b.firstRow).toNat < (t - a.firstRow).toNat ∨
        ((t - b.firstRow).toNat = (t - a.firstRow).toNat ∧ a.number.toNat ≤ b.number.toNat)) := fun a b ha hb => by
    have hrow : b.firstRow = a.firstRow ↔ (t - b.firstRow).toNat = (t - a.firstRow).toNat :=
      ⟨fun h => by rw [h], fun h => by bv_omega⟩
    rw [RecentHide.le_iff ha hb, hrow, BitVec.le_def]
  refine ⟨fun a b ha hb => ?_, fun a b c ha hb hc => ?_⟩
  · rw [hkeys a b ha hb, hkeys b a hb ha]; omega
  · rw [hkeys a b ha hb, hkeys b c hb hc, hkeys a c ha hc]; omega

theorem bestRecent_eq_none_iff (l : List RecentHide) : bestRecent l = none ↔ l = [] := by
  cases l <;> simp [bestRecent]

theorem bestRecent_least {t : Word} {l : List RecentHide} {r : RecentHide} (hl : ∀ c ∈ l, c.Covered t)
    (h : bestRecent l = some r) : r ∈ l ∧ ∀ c ∈ l, r.le c = true := by
  cases l with
  | nil => cases h
  | cons e l => exact Option.some.inj h ▸ foldl_least (RecentHide.le_ranks t) l e hl

end Binding

/-- Settles O39: the record by the best of the recent candidates, which the order of R102 ranks. -/
theorem markResolution : Obligations.MarkResolution := by
  intro p m hroom fits
  refine ⟨fun hnone => ?unbound, fun ⟨c, hc, hfits⟩ => ?bound, p.resolveMark_tracker m, ?recent⟩
  case unbound =>
    have hempty : p.recentCandidates m.target = [] := List.eq_nil_iff_forall_not_mem.2 fun r hr =>
      hnone r ((p.mem_recentCandidates _ r).1 hr).1 ((p.mem_recentCandidates _ r).1 hr).2
    rw [p.resolveMark_of_none ((bestRecent_eq_none_iff _).2 hempty), p.markRecord_outgoing _ _ _ _ _ _ hroom]
  case bound =>
    have hcand : c ∈ p.recentCandidates m.target := (p.mem_recentCandidates _ c).2 ⟨hc, hfits⟩
    obtain ⟨r, hr⟩ := Option.ne_none_iff_exists'.1 (mt (bestRecent_eq_none_iff _).1 (List.ne_nil_of_mem hcand))
    obtain ⟨hmem, hleast⟩ := bestRecent_least (fun c hc => ((p.mem_recentCandidates _ c).1 hc).2) hr
    obtain ⟨hrecent, hcovered⟩ := (p.mem_recentCandidates _ r).1 hmem
    refine ⟨r, hrecent, hcovered, fun d hd hdfits => ?_, ?_⟩
    · exact (RecentHide.le_iff hcovered hdfits).1 (hleast d ((p.mem_recentCandidates _ d).2 ⟨hd, hdfits⟩))
    · rw [p.resolveMark_of_some hr, p.markRecord_outgoing _ _ _ _ _ _ hroom, Part.recentCandidates_eq]
  case recent =>
    obtain ⟨o, c, hlots⟩ := p.resolveMark_sameButLots m
    rw [hlots]

end Sys2Proof.Machine

/-! ## A beat against the mark windows -/

namespace Sys2Proof.Machine

/-! ### The lanes of a beat in a window (R97, R99) -/

section Windows

variable (w : Window) (wordAddr : BitVec 22) (en : Lanes)

/-- Lane `l` of the beat is enabled and lies in the window. -/
@[reducible] def Window.LaneIn (l : Nat) : Prop :=
  en.getLsbD l = true ∧ w.base ≤ 4 * wordAddr.toNat + l ∧ 4 * wordAddr.toNat + l < w.base + w.size

theorem Window.laneIn_iff (l : Nat) :
    (en.getLsbD l && w.covers (wordLane wordAddr l)) = true ↔ w.LaneIn wordAddr en l := by
  simp only [Window.covers, Bool.and_eq_true, decide_eq_true_eq]
  rfl

/-- The beat matches the window (R97). -/
def Window.Hit (isWrite : Bool) : Prop := (isWrite || w.readWrite) = true ∧ ∃ l, l < 4 ∧ w.LaneIn wordAddr en l

theorem Window.matchesBeat_iff (isWrite : Bool) :
    w.matchesBeat isWrite wordAddr en = true ↔ w.Hit wordAddr en isWrite := by
  have hlane : ∀ l, l ∈ [0, 1, 2, 3] ↔ l < 4 := fun l => by simp; omega
  simp only [Window.matchesBeat, Window.Hit, Bool.and_eq_true (isWrite || _), List.any_eq_true, hlane, Window.laneIn_iff]

theorem getLsbD_fourBits : ∀ b3 b2 b1 b0 : Bool,
    let x := BitVec.ofBool b3 ++ BitVec.ofBool b2 ++ BitVec.ofBool b1 ++ BitVec.ofBool b0
    x.getLsbD 0 = b0 ∧ x.getLsbD 1 = b1 ∧ x.getLsbD 2 = b2 ∧ x.getLsbD 3 = b3 := by decide

theorem Window.getLsbD_lanes {l : Nat} (hl : l < 4) :
    (w.lanes wordAddr en).getLsbD l = (en.getLsbD l && w.covers (wordLane wordAddr l)) := by
  let bit := fun l => en.getLsbD l && w.covers (wordLane wordAddr l)
  obtain ⟨h0, h1, h2, h3⟩ := getLsbD_fourBits (bit 3) (bit 2) (bit 1) (bit 0)
  interval_cases l
  · exact h0
  · exact h1
  · exact h2
  · exact h3

theorem laneByte_and_laneMask (data : Word) (lanes : Lanes) {l : Nat} (hl : l < 4) :
    laneByte (data &&& laneMask lanes) l = if lanes.getLsbD l then laneByte data l else 0 := by
  have hmerge : data &&& laneMask lanes = mergeLanes 0 data lanes := by simp [mergeLanes]
  have hzero : laneByte 0 l = 0 := by simp [laneByte]
  rw [hmerge, laneByte_mergeLanes _ _ _ _ hl, hzero]

/-- A mark carries each window byte of an enabled lane in its own lane, 0 elsewhere (R99). -/
theorem Window.laneByte_markData (data : Word) {l : Nat} (hl : l < 4) :
    laneByte (w.markData wordAddr en data) l = if w.LaneIn wordAddr en l then laneByte data l else 0 := by
  simp only [Window.markData, laneByte_and_laneMask _ _ hl, Window.getLsbD_lanes _ _ _ hl, Window.laneIn_iff]

end Windows

/-! ### The sticky flags (R98) -/

theorem getLsbD_stickyBits (ks : List Nat) {k : Nat} (hk : k < 4) : (stickyBits ks).getLsbD k = true ↔ k ∈ ks := by
  have hbits : (stickyBits ks).getLsbD k = ((0 : BitVec 4).getLsbD k || (decide (k ∈ ks) && true)) :=
    getLsbD_addBeams (fun _ => true) ks 0 k hk
  simp [hbits]

section Sticky

variable (p : Part) (b : BitVec 4)

theorem Part.setSticky_lots : (p.setSticky b).lots = { p.lots with sticky := p.lots.sticky ||| b } := by
  unfold Part.setSticky
  split
  · next h => rw [h]
  · rfl

theorem Part.setSticky_frame :
    p.setSticky b = { p with lots := (p.setSticky b).lots, dirty := (p.setSticky b).dirty } := by
  unfold Part.setSticky
  split <;> rfl

theorem Part.setSticky_dirty (h : p.lots.sticky ||| b ≠ p.lots.sticky) :
    (p.setSticky b).dirty = insertRising wSticky p.dirty := by
  unfold Part.setSticky
  rw [if_neg h]
  rfl

end Sticky

/-! ### Raising a mark (R99, R101) -/

section Raise

variable (p : Part) (k : Nat) (d : Word)

/-- Before the lag has gone by there is no target row: the record is produced at once, for no hide. -/
theorem Part.raiseMark_early (h : p.tracker.rowIndex.toNat < p.setup.unguarded.markLag) :
    p.raiseMark k d = p.markRecord k d p.tracker.rowIndex none false p.lots.openLot.id := if_pos h

theorem Part.raiseMark_placed (h : p.setup.unguarded.markLag ≤ p.tracker.rowIndex.toNat) :
    p.raiseMark k d = p.placeMark
      { window := k, data := d, hitRow := p.tracker.rowIndex, hitLot := p.lots.openLot.id,
        target := p.tracker.rowIndex - BitVec.ofNat 32 p.setup.unguarded.markLag } := if_neg (Nat.not_lt.2 h)

/-- The record of a mark of the OPEN lot, with a free place. -/
theorem Part.markRecord_open (row : Word) (b : Option Half) (a : Bool) (hroom : p.recorder.outgoing.length < 8) :
    p.markRecord k d row b a p.lots.openLot.id = { p with
      lots.openLot.tally.marks := min 65535 (p.lots.openLot.tally.marks + 1)
      recorder.outgoing := p.recorder.outgoing ++ [.mark k d row b a p.lots.openLot.id] } := by
  rw [Part.markRecord, Part.modifyLot_open]
  exact Part.emit_of_lt _ _ hroom

theorem Part.placeMark_sticky (m : Mark) : (p.placeMark m).lots.sticky = p.lots.sticky := by
  unfold Part.placeMark
  split
  · split
    · rfl
    · rw [Part.dropMark_lots]
  · obtain ⟨o, c, hlots⟩ := p.resolveMark_sameButLots m
    rw [hlots]

theorem Part.raiseMark_sticky : (p.raiseMark k d).lots.sticky = p.lots.sticky := by
  by_cases h : p.tracker.rowIndex.toNat < p.setup.unguarded.markLag
  · obtain ⟨o, c, hlots⟩ := p.markRecord_sameButLots k d p.tracker.rowIndex none false p.lots.openLot.id
    rw [p.raiseMark_early k d h, hlots]
  · rw [p.raiseMark_placed k d (Nat.not_lt.1 h), Part.placeMark_sticky]

/-- Marks raised one after another, mark `k` with data `ds k`. -/
def Part.raiseMarks (ks : List Nat) (ds : Nat → Word) : Part := ks.foldl (fun p k => p.raiseMark k (ds k)) p

theorem Part.raiseMarks_sticky (ks : List Nat) (ds : Nat → Word) : (p.raiseMarks ks ds).lots.sticky = p.lots.sticky := by
  induction ks generalizing p with
  | nil => rfl
  | cons k ks ih => exact (ih _).trans (p.raiseMark_sticky k (ds k))

theorem Part.raiseMarks_frame (ks : List Nat) (ds : Nat → Word) :
    let q := p.raiseMarks ks ds
    q.tracker = p.tracker ∧ q.sched = p.sched ∧ q.head = p.head ∧ q.setup = p.setup ∧ q.intake = p.intake ∧
      q.belt = p.belt := by
  induction ks generalizing p with
  | nil => exact ⟨rfl, rfl, rfl, rfl, rfl, rfl⟩
  | cons k ks ih => simpa [Part.raiseMarks] using ih (p.raiseMark k (ds k))

end Raise

/-! ### The windows matched (R97 to R99) -/

section Beat

variable (p : Part) (isWrite : Bool) (wordAddr : BitVec 22) (en : Lanes) (data : Word)

/-- The numbers of the windows that the beat matches. -/
def Part.hitWindows : List Nat :=
  (p.numberedWindows.filter (fun w => w.2.matchesBeat isWrite wordAddr en)).map Prod.fst

/-- The numbers of the enabled ones among them. -/
def Part.armedWindows : List Nat :=
  ((p.numberedWindows.filter (fun w => w.2.matchesBeat isWrite wordAddr en)).filter
    (fun w => decide (w.2.enable ≠ .off))).map Prod.fst

/-- The data of a mark of window `k`. -/
def Part.windowData (k : Nat) : Word :=
  (p.setup.unguarded.windows[k]?.map (fun w => w.markData wordAddr en data)).getD 0

theorem Part.mem_numberedWindows (hlen : p.setup.unguarded.windows.length = 4) (k : Nat) (w : Window) :
    (k, w) ∈ p.numberedWindows ↔ p.setup.unguarded.windows[k]? = some w := by
  have hrange : ∀ i, (List.range 4)[i]? = some k ↔ i < 4 ∧ i = k := fun i => by simp [List.getElem?_eq_some_iff]
  simp only [Part.numberedWindows, List.mem_iff_getElem?, List.getElem?_zip_eq_some, hrange]
  constructor
  · rintro ⟨i, ⟨-, rfl⟩, hw⟩
    exact hw
  · intro hw
    exact ⟨k, ⟨hlen ▸ (List.getElem?_eq_some_iff.1 hw).1, rfl⟩, hw⟩

theorem Part.armedWindows_rising (hlen : p.setup.unguarded.windows.length = 4) :
    (p.armedWindows isWrite wordAddr en).Pairwise (· < ·) := by
  have hnumbers : p.numberedWindows.map Prod.fst = List.range 4 := List.map_fst_zip (by simp [hlen])
  have hrising : (p.numberedWindows.map Prod.fst).Pairwise (· < ·) := hnumbers ▸ List.pairwise_lt_range
  exact hrising.sublist ((List.filter_sublist.trans List.filter_sublist).map _)

theorem Part.mem_hitWindows (hlen : p.setup.unguarded.windows.length = 4) (k : Nat) :
    k ∈ p.hitWindows isWrite wordAddr en ↔
      ∃ w, p.setup.unguarded.windows[k]? = some w ∧ w.Hit wordAddr en isWrite := by
  simp [Part.hitWindows, p.mem_numberedWindows hlen, Window.matchesBeat_iff]

theorem Part.mem_armedWindows (hlen : p.setup.unguarded.windows.length = 4) (k : Nat) :
    k ∈ p.armedWindows isWrite wordAddr en ↔
      ∃ w, p.setup.unguarded.windows[k]? = some w ∧ w.Hit wordAddr en isWrite ∧ w.enable ≠ .off := by
  simp [Part.armedWindows, p.mem_numberedWindows hlen, Window.matchesBeat_iff, and_assoc, and_comm (b := Window.Hit _ _ _ _)]

theorem Part.windowData_eq {k : Nat} {w : Window} (hw : p.setup.unguarded.windows[k]? = some w) :
    p.windowData wordAddr en data k = w.markData wordAddr en data := by
  rw [Part.windowData, hw]; rfl

/-- A beat that matches no enabled window does nothing. -/
theorem Part.markBeat_of_none (h : p.armedWindows isWrite wordAddr en = []) : p.markBeat isWrite wordAddr en data = p :=
  if_pos (by rw [List.isEmpty_iff]; exact List.map_eq_nil_iff.1 h)

/-- Any other sets the sticky flags of the windows matched and raises a mark for each enabled one. -/
theorem Part.markBeat_of_some (hlen : p.setup.unguarded.windows.length = 4) (h : p.armedWindows isWrite wordAddr en ≠ []) :
    p.markBeat isWrite wordAddr en data = (p.setSticky (stickyBits (p.hitWindows isWrite wordAddr en))).raiseMarks
      (p.armedWindows isWrite wordAddr en) (p.windowData wordAddr en data) := by
  rw [Part.armedWindows, Part.raiseMarks, List.foldl_map]
  refine (if_neg (by rw [List.isEmpty_iff]; exact mt List.map_eq_nil_iff.2 h)).trans (List.foldl_ext _ _ _ fun q kw hkw => ?_)
  have hw := (p.mem_numberedWindows hlen kw.1 kw.2).1 (List.mem_of_mem_filter (List.mem_of_mem_filter hkw))
  rw [p.windowData_eq wordAddr en data hw]

end Beat

/-- Settles O37: the windows matched and the enabled ones among them, the flags they set, and one mark raised. -/
theorem markWindowMatch : Obligations.MarkWindowMatch := by
  intro isWrite wordAddr en data s hits hlen
  have hnext : exec (.markWindowMatch isWrite wordAddr en data) s =
      .next (s.onPart (fun p => p.markBeat isWrite wordAddr en data)) := rfl
  refine ⟨fun hoff => ?nothing, fun ⟨w, hw, hhit, hon⟩ => ?marks, fun b => ?sticky, fun p k d => ?raise⟩
  case nothing =>
    have harmed : s.part.armedWindows isWrite wordAddr en = [] := by
      refine List.eq_nil_iff_forall_not_mem.2 fun k hk => ?_
      obtain ⟨w, hw, hhit, hon⟩ := (s.part.mem_armedWindows isWrite wordAddr en hlen k).1 hk
      exact hon (hoff w (List.mem_of_getElem? hw) hhit)
    rw [hnext, State.onPart_of_eq (s.part.markBeat_of_none isWrite wordAddr en data harmed)]
  case marks =>
    obtain ⟨k, hk⟩ := List.getElem?_of_mem hw
    have harmed : s.part.armedWindows isWrite wordAddr en ≠ [] :=
      List.ne_nil_of_mem ((s.part.mem_armedWindows isWrite wordAddr en hlen k).2 ⟨w, hk, hhit, hon⟩)
    have hbeat := s.part.markBeat_of_some isWrite wordAddr en data hlen harmed
    have hframe := (s.part.setSticky (stickyBits (s.part.hitWindows isWrite wordAddr en))).raiseMarks_frame
      (s.part.armedWindows isWrite wordAddr en) (s.part.windowData wordAddr en data)
    rw [hnext, State.onPart, hbeat]
    obtain ⟨htracker, hsched, hhead, hsetup, hintake, hbelt⟩ := hframe
    refine ⟨_, rfl, rfl, htracker.trans (by simp), hsched.trans (by simp), hhead.trans (by simp), hsetup.trans (by simp),
      hintake.trans (by simp), hbelt.trans (by simp), fun k w hw => ?_, _, _, _,
      s.part.armedWindows_rising isWrite wordAddr en hlen, s.part.mem_armedWindows isWrite wordAddr en hlen,
      fun k _ w hw l hl => ?_, rfl⟩
    · have hk : k < 4 := hlen ▸ (List.getElem?_eq_some_iff.1 hw).1
      have hmem := (getLsbD_stickyBits (s.part.hitWindows isWrite wordAddr en) hk).trans
        (s.part.mem_hitWindows isWrite wordAddr en hlen k)
      rw [Part.raiseMarks_sticky, Part.setSticky_lots, BitVec.getLsbD_or, Bool.or_eq_true, hmem]
      exact or_congr_right ⟨fun ⟨v, hv, hvhit⟩ => Option.some.inj (hv.symm.trans hw) ▸ hvhit, fun h => ⟨w, hw, h⟩⟩
    · rw [s.part.windowData_eq wordAddr en data hw, w.laneByte_markData wordAddr en data hl]
  case sticky =>
    refine ⟨s.part.setSticky_lots b, s.part.setSticky_frame b, fun h => ?_⟩
    rw [s.part.setSticky_dirty b h]
    exact (mem_insertRising _ _ _).2 (.inl rfl)
  case raise =>
    refine ⟨fun hearly hroom => ?_, p.raiseMark_placed k d⟩
    rw [p.raiseMark_early k d hearly, p.markRecord_open k d _ _ _ hroom]

end Sys2Proof.Machine

/-! ## Entering a head state, and the jobs that follow -/

namespace Sys2Proof.Machine

/-! ### Held commands (R133, 7.2) -/

section Held

variable {slots : List Slot}

/-- The six used slots, one by one. -/
theorem eq_six_of_length {α : Type} {l : List α} (h : l.length = 6) : ∃ a b c d e f, l = [a, b, c, d, e, f] := by
  match l, h with
  | [a, b, c, d, e, f], _ => exact ⟨a, b, c, d, e, f, rfl⟩

/-- A slot that is set nothing goes on holding what it held. -/
theorem holdAll_held (slots : List Slot) (cmds : List (Option SlotCmd)) :
    (holdAll slots cmds).map Slot.held = List.zipWith (fun held c => c.getD held) (slots.map Slot.held) cmds := by
  rw [holdAll, List.map_zipWith, List.zipWith_map_left]
  congr
  funext s c
  cases c <;> rfl

theorem holdAll_held_every {cmds : List SlotCmd} (h : slots.length = cmds.length) :
    (holdAll slots (cmds.map some)).map Slot.held = cmds := by
  rw [holdAll_held, List.zipWith_map_right]
  induction cmds generalizing slots with
  | nil => simp
  | cons c cmds ih =>
    obtain ⟨s, slots, rfl⟩ := List.exists_cons_of_length_eq_add_one h
    simpa using ih (by simpa using h)

theorem holdAll_held_hammer (h : slots.length = 6) (c : SlotCmd) :
    (holdAll slots (wheels none none (some c))).map Slot.held = (slots.map Slot.held).set 5 c := by
  obtain ⟨c0, c1, c2, c3, c4, c5, rfl⟩ := eq_six_of_length h
  rfl

/-- The hammer is slot 5. -/
theorem holdAll_hammer (h : slots.length = 6) (c : SlotCmd) :
    ((holdAll slots (wheels none none (some c))).getD 5 (Slot.powerOn .safe)).held = c := by
  obtain ⟨c0, c1, c2, c3, c4, c5, rfl⟩ := eq_six_of_length h
  rfl

theorem holdAll_held_none (h : slots.length = 6) :
    (holdAll slots (wheels none none none)).map Slot.held = slots.map Slot.held := by
  obtain ⟨c0, c1, c2, c3, c4, c5, rfl⟩ := eq_six_of_length h
  rfl

theorem holdAll_run {cmds : List (Option SlotCmd)} (h : ∀ s ∈ slots, s.run = 0) :
    ∀ s ∈ holdAll slots cmds, s.run = 0 := by
  induction slots generalizing cmds with
  | nil => simp [holdAll]
  | cons s slots ih =>
    obtain ⟨hs, hslots⟩ := List.forall_mem_cons.1 h
    cases cmds with
    | nil => simp [holdAll]
    | cons c cmds => exact List.forall_mem_cons.2 ⟨by cases c <;> exact hs, ih hslots⟩

end Held

/-! ### The entry (R136, R151) -/

section Entry

variable (p : Part)

@[simp] theorem Part.enterHead_head (st : HeadState) : (p.enterHead st).head =
    { p.head with state := st, slots := holdAll p.head.slots (entryCommands st p.head.inHand) } := by
  unfold Part.enterHead
  dsimp only
  split <;> rfl

@[simp] theorem Part.dropInHand_head : p.dropInHand.head = { p.head with inHand := none } := rfl

@[simp] theorem Part.clearRuns_head :
    p.clearRuns.head = { p.head with slots := p.head.slots.map (fun s => { s with run := 0 }) } := rfl

theorem Part.wBelt_mem_enterHead {st : HeadState} (h : p.head.state ≠ st) : wBelt ∈ (p.enterHead st).dirty := by
  unfold Part.enterHead
  dsimp only
  rw [if_neg h]
  exact (mem_insertRising _ _ _).2 (.inl rfl)

/-- Where a state sets all six commands, these are held after its entry. -/
theorem Part.enterHead_held {st : HeadState} {cmds : List SlotCmd} (hc : entryCommands st p.head.inHand = cmds.map some)
    (h : p.head.slots.length = 6) : (p.enterHead st).head.slots.map Slot.held = cmds := by
  have hlength : cmds.length = 6 := by
    rw [← List.length_map (f := some), ← hc, entryCommands_length]
  rw [Part.enterHead_head, hc]
  exact holdAll_held_every (h.trans hlength.symm)

end Entry

/-! ### Naming the next job (R117) -/

section Naming

variable {p : Part}

theorem Part.headTakesJobs_iff : p.headTakesJobs = true ↔ p.head.state = .homing ∨ p.head.state = .ready := by
  simp [Part.headTakesJobs]

theorem Part.nameJob_of_current {j : Job} (h : p.sched.current = some j) : p.nameJob = p := by
  unfold Part.nameJob
  rw [h]

theorem Part.nameJob_of_not_taking (h : ¬ p.headTakesJobs = true) : p.nameJob = p := by
  unfold Part.nameJob
  split
  · exact if_neg h
  · rfl

theorem Part.nameJob_sched (hc : p.sched.current = none) (h : p.headTakesJobs = true) : p.nameJob.sched =
    { p.sched with current := p.sched.waiting.head?, waiting := p.sched.waiting.tail } := by
  unfold Part.nameJob
  rw [hc]
  cases hw : p.sched.waiting with
  | nil => exact congrArg₂ (Scheduler.mk p.sched.heights) hc hw
  | cons j rest => dsimp only; rw [if_pos h]; rfl

/-! ### Starting it (R144, R118) -/

theorem Part.startJob_of_none (hc : p.sched.current = none) : p.startJob = p := by
  unfold Part.startJob
  rw [hc]

theorem Part.startJob_of_not_ready (h : p.head.state ≠ .ready) : p.startJob = p := by
  unfold Part.startJob
  split
  · exact if_neg (fun hr => h hr.1)
  · rfl

theorem Part.startJob_of_busy {j : Job} (hc : p.sched.current = some j) (h : j.state ≠ .queued) : p.startJob = p := by
  unfold Part.startJob
  rw [hc]
  exact if_neg (fun hr => h hr.2)

/-- What the link takes of a job into its hand (R144). -/
def Job.toHand (j : Job) : InHand := { number := j.info.number, target := j.target, symbols := j.symbols }

/-- The head in PREPARING for a job, the others waiting. -/
def Part.preparingFor (p : Part) (j : Job) (rest : List Job) : Part :=
  ({ p with
    sched.current := some { j with state := .preparing }
    sched.waiting := rest
    head.inHand := some j.toHand } : Part).enterHead .preparing

theorem Part.preparingFor_sched (p : Part) (j : Job) (rest : List Job) : (p.preparingFor j rest).sched =
    { p.sched with current := some { j with state := .preparing }, waiting := rest } := by
  rw [Part.preparingFor, Part.enterHead_sched]

theorem Part.preparingFor_head (p : Part) (j : Job) (rest : List Job) :
    (p.preparingFor j rest).head.state = .preparing ∧ (p.preparingFor j rest).head.inHand = some j.toHand := by
  rw [Part.preparingFor, Part.enterHead_head]
  exact ⟨rfl, rfl⟩

theorem Part.preparingFor_held (p : Part) (j : Job) (rest : List Job) (h : p.head.slots.length = 6) :
    (p.preparingFor j rest).head.slots.map Slot.held = [.goto j.target, .set j.symbols.w1, .set j.symbols.w2,
      .set j.symbols.w3, .set j.symbols.w4, .safe] :=
  Part.enterHead_held _ rfl h

theorem Part.startJob_of_ready {j : Job} (hr : p.head.state = .ready) (hc : p.sched.current = some j)
    (hq : j.state = .queued) : p.startJob = p.preparingFor j p.sched.waiting := by
  unfold Part.startJob
  rw [hc]
  dsimp only
  rw [if_pos ⟨hr, hq⟩]
  unfold Part.preparingFor Part.setJobState Part.enterHead Job.toHand
  dsimp only
  split <;> simp [hc, Part.mark]

/-! ### Both (R117, R144) -/

/-- `j` is the job to do next: the current one, or with none current the first that waits. -/
def Part.NextJob (p : Part) (j : Job) (rest : List Job) : Prop :=
  (p.sched.current = some j ∧ p.sched.waiting = rest) ∨ (p.sched.current = none ∧ p.sched.waiting = j :: rest)

theorem Part.nameAndStart_of_not_taking (hh : p.head.state ≠ .homing) (hr : p.head.state ≠ .ready) : p.nameAndStart = p := by
  rw [Part.nameAndStart, Part.nameJob_of_not_taking (fun h => (Part.headTakesJobs_iff.1 h).elim hh hr),
    Part.startJob_of_not_ready hr]

theorem Part.nameAndStart_of_homing (h : p.head.state = .homing) : p.nameAndStart = p.nameJob :=
  Part.startJob_of_not_ready (by rw [Part.nameJob_head, h]; decide)

theorem Part.nameAndStart_of_busy {j : Job} (hc : p.sched.current = some j) (h : j.state ≠ .queued) : p.nameAndStart = p := by
  rw [Part.nameAndStart, Part.nameJob_of_current hc, Part.startJob_of_busy hc h]

theorem Part.nameAndStart_of_no_jobs (h : p.jobs = []) : p.nameAndStart = p := by
  obtain ⟨hc, hw⟩ := List.append_eq_nil_iff.1 h
  rw [Option.toList_eq_nil_iff] at hc
  have hname : p.nameJob = p := by unfold Part.nameJob; rw [hc, hw]
  rw [Part.nameAndStart, hname, Part.startJob_of_none hc]

/-- READY with a job to do: the head goes on to PREPARING for it. -/
theorem Part.nameAndStart_of_ready {j : Job} {rest : List Job} (hr : p.head.state = .ready) (hj : p.NextJob j rest)
    (hq : j.state = .queued) : p.nameAndStart = p.preparingFor j rest := by
  rcases hj with ⟨hc, rfl⟩ | ⟨hc, hw⟩
  · rw [Part.nameAndStart, Part.nameJob_of_current hc, Part.startJob_of_ready hr hc hq]
  · have hname : p.nameJob = { p with sched.current := some j, sched.waiting := rest } := by
      unfold Part.nameJob
      rw [hc, hw]
      exact if_pos (Part.headTakesJobs_iff.2 (.inr hr))
    rw [Part.nameAndStart, hname]
    exact Part.startJob_of_ready (p := { p with sched.current := some j, sched.waiting := rest }) hr rfl hq

/-- A job whatever its state. -/
def Job.asQueued (j : Job) : Job := { j with state := .queued }

/-- Naming and starting changes nothing of the queue but the state of a job. -/
theorem Part.nameAndStart_jobs (p : Part) : p.nameAndStart.jobs.map Job.asQueued = p.jobs.map Job.asQueued := by
  rw [Part.nameAndStart, ← p.nameJob_jobs]
  unfold Part.startJob
  split
  · next j hj =>
    split
    · simp [Part.jobs, Part.setJobState, hj, Job.asQueued]
    · rfl
  · rfl

theorem Part.nameAndStart_of_current {j : Job} (hc : p.sched.current = some j) :
    p.nameAndStart.sched.current.map Job.asQueued = some j.asQueued ∧ p.nameAndStart.sched.waiting = p.sched.waiting := by
  rw [Part.nameAndStart, Part.nameJob_of_current hc]
  unfold Part.startJob
  rw [hc]
  dsimp only
  split
  · simp [Part.setJobState, hc, Job.asQueued]
  · simp [hc]

theorem Part.nameAndStart_waiting_subset (p : Part) : p.nameAndStart.sched.waiting ⊆ p.sched.waiting := by
  have hstart : p.nameAndStart.sched.waiting = p.nameJob.sched.waiting := by
    unfold Part.nameAndStart Part.startJob
    split
    · split
      · simp [Part.setJobState]
      · rfl
    · rfl
  rw [hstart]
  unfold Part.nameJob
  split
  · next hw =>
    split
    · rw [hw]; exact List.subset_cons_self _ _
    · exact List.Subset.refl _
  · exact List.Subset.refl _

end Naming

/-! ### Entries to READY and PARKING (R144, R148, R128) -/

section Parking

variable {p : Part}

theorem Part.enterReady_of_parked (h : p.belt.present = .parked) : p.enterReady = p.enterParking := if_pos h

theorem Part.enterReady_of_not_parked (h : p.belt.present ≠ .parked) : p.enterReady = p.enterHead .ready := if_neg h

theorem Part.enterParking_head (p : Part) : p.enterParking.head = (p.dropInHand.enterHead .parking).head := by
  unfold Part.enterParking
  dsimp only
  split
  · split <;> rfl
  · rfl

theorem Part.enterParking_state (p : Part) : p.enterParking.head.state = .parking ∧ p.enterParking.head.inHand = none := by
  rw [Part.enterParking_head, Part.enterHead_head]
  exact ⟨rfl, rfl⟩

theorem Part.enterParking_held (p : Part) (h : p.head.slots.length = 6) :
    p.enterParking.head.slots.map Slot.held = [.park, .set 10, .set 10, .set 10, .set 10, .safe] := by
  rw [Part.enterParking_head]
  exact Part.enterHead_held _ rfl h

/-- A current job that is not STRIKING goes back among the waiting ones. -/
theorem Part.enterParking_returns {j : Job} (hc : p.sched.current = some j) (h : j.state ≠ .striking) :
    p.enterParking.sched.current = none ∧ p.enterParking.sched.waiting = (p.placeJob j).sched.waiting := by
  have hc' : (p.dropInHand.enterHead .parking).sched.current = some j := by simpa using hc
  unfold Part.enterParking
  dsimp only
  rw [hc']
  dsimp only
  rw [if_neg h]
  simp [Part.placeJob]

theorem Part.enterParking_leaves (h : ∀ j, p.sched.current = some j → j.state = .striking) :
    p.enterParking.sched = p.sched := by
  have hc : (p.dropInHand.enterHead .parking).sched.current = p.sched.current := by simp
  unfold Part.enterParking
  dsimp only
  rw [hc]
  cases hcur : p.sched.current with
  | none => simp
  | some j => dsimp only; rw [if_pos (h j hcur)]; simp

/-- In PARKING no job is named. -/
theorem Part.enterReady_nameAndStart_parked (h : p.belt.present = .parked) :
    p.enterReady.nameAndStart = p.enterParking := by
  rw [Part.enterReady_of_parked h]
  have hstate := p.enterParking_state.1
  exact Part.nameAndStart_of_not_taking (by rw [hstate]; decide) (by rw [hstate]; decide)

theorem Part.enterReady_nameAndStart_idle (h : p.belt.present ≠ .parked) (hj : p.jobs = []) :
    p.enterReady.nameAndStart = p.enterHead .ready := by
  rw [Part.enterReady_of_not_parked h, Part.nameAndStart_of_no_jobs (by simpa [Part.jobs] using hj)]

theorem Part.enterReady_nameAndStart_next {j : Job} {rest : List Job} (h : p.belt.present ≠ .parked) (hj : p.NextJob j rest)
    (hq : j.state = .queued) : p.enterReady.nameAndStart = (p.enterHead .ready).preparingFor j rest := by
  rw [Part.enterReady_of_not_parked h]
  exact Part.nameAndStart_of_ready (by simp) (by simpa [Part.NextJob] using hj) hq

end Parking

end Sys2Proof.Machine

/-! ## Jobs that leave, and their records -/

namespace Sys2Proof.Machine

/-- The HIDE record of a job that leaves with this outcome (R125). -/
def Job.record (o : StampOutcome) (j : Job) : Record := .hide j.info o (some j.strikeRow)

section Leaving

variable {p : Part}

theorem Part.finishCurrent_sched (p : Part) (o : StampOutcome) :
    (p.finishCurrent o).sched = { p.sched with current := none } := by
  unfold Part.finishCurrent
  cases hc : p.sched.current with
  | none => simp [← hc]
  | some j => simp

theorem Part.finishCurrent_of_some {j : Job} (hc : p.sched.current = some j) (o : StampOutcome) :
    p.finishCurrent o = { p with sched.current := none }.finishJob j o := by
  unfold Part.finishCurrent
  rw [hc]

theorem Part.missAll_jobs (p : Part) (r : MissReason) : (p.missAll r).jobs = [] := by
  have hsched := Part.missWaiting_sched (p.finishCurrent (.missed r)) r _ rfl
  rw [Part.finishCurrent_sched] at hsched
  rw [Part.jobs, Part.missAll]
  simp [hsched, Part.finishCurrent_sched]

theorem Part.release_recorder (i : HideInfo) (o : StampOutcome) (x : Option Word) (h : p.recorder.outgoing.length < 8) :
    (p.release i o x).recorder = { p.recorder with outgoing := p.recorder.outgoing ++ [.hide i o x] } := by
  rw [Part.release, Part.emit_of_lt _ _ (by simpa using h)]
  simp

theorem Part.setupQuiet_of_jobs (h : p.jobs ≠ []) : p.setupQuiet = false :=
  Bool.eq_false_iff.2 fun hq => h (p.setupQuiet_iff.1 hq).2.2.1

theorem Part.setupQuiet_of_pass (h : p.tracker.pass.isSome = true) : p.setupQuiet = false :=
  Bool.eq_false_iff.2 fun hq => by rw [(p.setupQuiet_iff.1 hq).1] at h; exact Bool.false_ne_true h

/-! ### While no lot is CLOSING -/

section NoLotClosing

variable (hc : p.lots.closing = none)
include hc

/-- A job's record joins; while others stay the part is not setup-quiet, and the record is the last to join (R125, R181). -/
theorem Part.finishJob_record (j : Job) (o : StampOutcome) (h : p.recorder.outgoing.length < 8) :
    (p.recorder.outgoing ++ [j.record o]) <+: (p.finishJob j o).recorder.outgoing ∧
      (p.jobs ≠ [] → (p.finishJob j o).recorder.outgoing = p.recorder.outgoing ++ [j.record o]) := by
  have hreleased := p.release_appends hc j.info o (some j.strikeRow)
  have hrecord := Part.release_outgoing j.info o (some j.strikeRow) h
  rw [Part.finishJob_eq_of_none hc]
  refine ⟨hrecord ▸ (Part.applySnapshotIfQuiet_appends hreleased.closing).outgoing, fun hjobs => ?_⟩
  have hbusy := Part.setupQuiet_of_jobs (p := p.release j.info o (some j.strikeRow)) (by simpa [Part.jobs] using hjobs)
  rw [Part.applySnapshotIfQuiet_waits _ (.inr hbusy)]
  exact hrecord

/-- The waiting jobs' records join behind `l`, where nothing else has joined as long as a job is left. -/
theorem Part.missWaiting_records (r : MissReason) (js : List Job) (l : List Record) (hfirst : l <+: p.recorder.outgoing)
    (hexact : js ≠ [] → p.recorder.outgoing = l) (h : l.length + js.length ≤ 8) :
    (l ++ js.map (Job.record (.missed r))) <+: (p.missWaiting r js).recorder.outgoing := by
  induction js generalizing p l with
  | nil => rw [List.map_nil, List.append_nil]; exact hfirst
  | cons j js ih =>
    have hl := hexact (List.cons_ne_nil _ _)
    rw [List.length_cons] at h
    obtain ⟨hfirst', hexact'⟩ := Part.finishJob_record (p := { p with sched.waiting := js }) hc j (.missed r)
      (by rw [hl]; omega)
    have hclosing := (Part.finishJob_appends (p := { p with sched.waiting := js }) hc j (.missed r)).closing
    have hrest := ih hclosing (l ++ [j.record (.missed r)]) (hl ▸ hfirst')
      (fun hjs => hl ▸ hexact' (by simp [Part.jobs, hjs])) (by rw [List.length_append, List.length_singleton]; omega)
    rwa [List.append_assoc] at hrest

/-- Every job leaves with its record, the current one first (R127). -/
theorem Part.missAll_records (r : MissReason) (h : p.recorder.outgoing.length + p.jobs.length ≤ 8) :
    (p.recorder.outgoing ++ p.jobs.map (Job.record (.missed r))) <+: (p.missAll r).recorder.outgoing := by
  have hwaiting : (p.finishCurrent (.missed r)).sched.waiting = p.sched.waiting := by rw [Part.finishCurrent_sched]
  rw [Part.missAll, hwaiting]
  cases hcur : p.sched.current with
  | none =>
    have hstay : p.finishCurrent (.missed r) = p := by unfold Part.finishCurrent; rw [hcur]
    simp only [Part.jobs, hcur, Option.toList_none, List.nil_append] at h ⊢
    rw [hstay]
    exact Part.missWaiting_records hc r _ _ List.prefix_rfl (fun _ => rfl) h
  | some j =>
    simp only [Part.jobs, hcur, Option.toList_some, List.singleton_append, List.length_cons] at h ⊢
    obtain ⟨hfirst, hexact⟩ := Part.finishJob_record (p := { p with sched.current := none }) hc j (.missed r)
      (by dsimp only; omega)
    have hclosing := (Part.finishJob_appends (p := { p with sched.current := none }) hc j (.missed r)).closing
    have hrest := Part.missWaiting_records hclosing r p.sched.waiting _ hfirst
      (fun hw => hexact (by simpa [Part.jobs] using hw))
      (by rw [List.length_append, List.length_singleton]; dsimp only; omega)
    rw [Part.finishCurrent_of_some hcur]
    simpa using hrest

end NoLotClosing

/-! ### While a row pass is in progress -/

/-- In a pass a final outcome is a record and no more: the tests that follow it wait for the end of the pass (R89, R181). -/
theorem Part.finishJob_in_pass (h : p.tracker.pass.isSome = true) (j : Job) (o : StampOutcome) :
    p.finishJob j o = p.release j.info o (some j.strikeRow) := by
  have hbusy := Part.setupQuiet_of_pass (p := p.release j.info o (some j.strikeRow)) (by simpa using h)
  rw [Part.finishJob, Part.applySnapshotIfQuiet_waits _ (.inr hbusy)]
  unfold Part.closingTestFor
  split
  · split
    · exact Part.closingTest_of_pass _ (by simpa only [Part.applySnapshotIfQuiet_tracker, Part.release_tracker] using h)
    · rfl
  · rfl

theorem Part.finishJob_in_pass_recorder (h : p.tracker.pass.isSome = true) (j : Job) (o : StampOutcome)
    (hroom : p.recorder.outgoing.length < 8) :
    (p.finishJob j o).recorder = { p.recorder with outgoing := p.recorder.outgoing ++ [j.record o] } := by
  rw [Part.finishJob_in_pass h, Part.release_recorder _ _ _ hroom]
  rfl

/-- The waiting jobs reached leave, the others stay in order (R121). -/
theorem Part.missPassed_sched (kept js : List Job) (h : p.sched.waiting = kept.reverse ++ js) :
    (p.missPassed kept js).sched =
      { p.sched with waiting := kept.reverse ++ js.filter (fun j => !j.reached p.tracker.rowIndex) } := by
  induction js generalizing p kept with
  | nil => rw [Part.missPassed, List.filter_nil, ← h]
  | cons j js ih =>
    unfold Part.missPassed
    split
    · next hj => rw [ih kept (by simp), List.filter_cons_of_neg (by simp [hj])]; simp
    · next hj => rw [ih (j :: kept) (by simp [h]), List.filter_cons_of_pos (by simp [hj])]; simp

theorem Part.missPassed_recorder (hpass : p.tracker.pass.isSome = true) (kept js : List Job) :
    let gone := js.filter (fun j => j.reached p.tracker.rowIndex)
    p.recorder.outgoing.length + gone.length ≤ 8 → (p.missPassed kept js).recorder =
      { p.recorder with outgoing := p.recorder.outgoing ++ gone.map (Job.record (.missed .passed)) } := by
  dsimp only
  induction js generalizing p kept with
  | nil => intro _; simp [Part.missPassed]
  | cons j js ih =>
    intro hroom
    unfold Part.missPassed
    split
    · next hj =>
      rw [List.filter_cons, if_pos hj, List.length_cons] at hroom
      have hrecorder := Part.finishJob_in_pass_recorder (p := { p with sched.waiting := kept.reverse ++ js }) hpass j
        (.missed .passed) (by dsimp only; omega)
      have hrest := ih (p := { p with sched.waiting := kept.reverse ++ js }.finishJob j (.missed .passed))
        (by simpa using hpass) kept
      rw [hrecorder, Part.finishJob_tracker] at hrest
      rw [hrest (by simp; omega), List.filter_cons, if_pos hj]
      simp
    · next hj =>
      rw [List.filter_cons, if_neg hj] at hroom ⊢
      exact ih hpass (j :: kept) hroom

end Leaving

end Sys2Proof.Machine

/-! ## The jobs settled by an increment of the row index -/

namespace Sys2Proof.Machine

/-! ### The current job's part (R121) -/

section CurrentSettled

variable {p : Part}

theorem Part.withdraw_of_preparing (h : p.head.state = .preparing) : p.withdraw = p.dropInHand.enterReady := if_pos (.inl h)

theorem Part.requestStrike_sched (p : Part) (j : Job) : (p.requestStrike j).sched = (p.setJobState .striking).sched := by
  unfold Part.requestStrike
  dsimp only
  split
  · rw [Part.enterHead_sched]
  · rfl

/-- An ARMED head with this job in hand strikes for it (R146). -/
theorem Part.requestStrike_of_armed {j : Job} (h : p.head.state = .armed)
    (hj : p.head.inHand.map InHand.number = some j.info.number) :
    p.requestStrike j = ({ p.setJobState .striking with head.window := 0 } : Part).enterHead .striking := if_pos ⟨h, hj⟩

variable {j : Job} (hc : p.sched.current = some j)
include hc

/-- A QUEUED job that is reached leaves. -/
theorem Part.settleCurrent_queued (hr : j.reached p.tracker.rowIndex = true) (hs : j.state = .queued) :
    p.settleCurrent = p.finishCurrent (.missed .notReady) := by
  simp only [Part.settleCurrent, hc, hr, hs, if_true]

/-- A PREPARING job that is reached leaves and is withdrawn. -/
theorem Part.settleCurrent_preparing (hr : j.reached p.tracker.rowIndex = true) (hs : j.state = .preparing) :
    p.settleCurrent = (p.finishCurrent (.missed .notReady)).withdraw := by
  simp only [Part.settleCurrent, hc, hr, hs, if_true]

/-- For an ARMED job that is reached the strike is requested. -/
theorem Part.settleCurrent_armed (hr : j.reached p.tracker.rowIndex = true) (hs : j.state = .armed) :
    p.settleCurrent = p.requestStrike j := by
  simp only [Part.settleCurrent, hc, hr, hs, if_true]

/-- A job that is not reached, and a STRIKING one, are left alone. -/
theorem Part.settleCurrent_alone (h : j.reached p.tracker.rowIndex = false ∨ j.state = .striking) : p.settleCurrent = p := by
  simp only [Part.settleCurrent, hc]
  rcases h with h | h <;> simp [h]

/-- The increment takes the current job: it is reached, and the head is not ready to strike for it. -/
def Part.TakesCurrent (p : Part) (j : Job) : Prop :=
  j.reached p.tracker.rowIndex = true ∧ (j.state = .queued ∨ j.state = .preparing)

/-- These records join the outgoing queue if there is room for them, and nothing else does. -/
def Part.RecordsJoin (p q : Part) (l : List Record) : Prop :=
  p.recorder.outgoing.length + l.length ≤ 8 →
    q.recorder = { p.recorder with outgoing := p.recorder.outgoing ++ l }

omit hc in
theorem Part.RecordsJoin.append {q t : Part} {l m : List Record} (h : p.RecordsJoin q l) (h' : q.RecordsJoin t m) :
    p.RecordsJoin t (l ++ m) := by
  intro hroom
  rw [List.length_append] at hroom
  have hq := h (by omega)
  have ht := h' (by rw [hq]; simp only [List.length_append]; omega)
  rw [ht, hq]
  simp

theorem Part.settleCurrent_taken (hpass : p.tracker.pass.isSome = true) (h : p.TakesCurrent j) :
    p.settleCurrent.sched = { p.sched with current := none } ∧
      p.RecordsJoin p.settleCurrent [j.record (.missed .notReady)] := by
  have hfinished : (p.finishCurrent (.missed .notReady)).sched = { p.sched with current := none } ∧
      p.RecordsJoin (p.finishCurrent (.missed .notReady)) [j.record (.missed .notReady)] := by
    refine ⟨p.finishCurrent_sched _, fun hroom => ?_⟩
    rw [Part.finishCurrent_of_some hc]
    exact Part.finishJob_in_pass_recorder (p := { p with sched.current := none }) hpass j _
      (Nat.lt_of_succ_le hroom)
  obtain ⟨hr, hs | hs⟩ := h
  · rw [Part.settleCurrent_queued hc hr hs]
    exact hfinished
  · rw [Part.settleCurrent_preparing hc hr hs, Part.withdraw_sched_of_none _ (by rw [Part.finishCurrent_sched]),
      Part.RecordsJoin, Part.withdraw_recorder]
    exact hfinished

theorem Part.settleCurrent_kept (h : ¬ p.TakesCurrent j) :
    p.settleCurrent.sched.current.map Job.asQueued = some j.asQueued ∧
      p.settleCurrent.sched.waiting = p.sched.waiting ∧ p.settleCurrent.recorder = p.recorder := by
  have halone : p.settleCurrent = p → p.settleCurrent.sched.current.map Job.asQueued = some j.asQueued ∧
      p.settleCurrent.sched.waiting = p.sched.waiting ∧ p.settleCurrent.recorder = p.recorder := by
    intro e
    rw [e, hc]
    exact ⟨rfl, rfl, rfl⟩
  cases hr : j.reached p.tracker.rowIndex with
  | false => exact halone (Part.settleCurrent_alone hc (.inl hr))
  | true =>
    cases hs : j.state with
    | queued => exact absurd ⟨hr, .inl hs⟩ h
    | preparing => exact absurd ⟨hr, .inr hs⟩ h
    | striking => exact halone (Part.settleCurrent_alone hc (.inr hs))
    | armed =>
      rw [Part.settleCurrent_armed hc hr hs, Part.requestStrike_sched, Part.requestStrike_recorder]
      simp [Part.setJobState, hc, Job.asQueued]

end CurrentSettled

/-! ### The waiting jobs' part (R121) -/

section WaitingSettled

variable (p : Part)

/-- The waiting jobs that an increment leaves waiting. -/
def Part.staying : List Job := p.sched.waiting.filter (fun j => !j.reached p.tracker.rowIndex)

/-- The waiting jobs that it takes. -/
def Part.passed : List Job := p.sched.waiting.filter (fun j => j.reached p.tracker.rowIndex)

/-- The jobs settled, before the next one is named. -/
def Part.jobsSettled : Part := p.settleCurrent.missPassed [] p.settleCurrent.sched.waiting

theorem Part.settleIncrement_eq : p.settleIncrement = p.jobsSettled.nameAndStart := rfl

theorem Part.settleCurrent_none (hc : p.sched.current = none) : p.settleCurrent = p := by
  unfold Part.settleCurrent
  rw [hc]

variable {p} (hpass : p.tracker.pass.isSome = true)
include hpass

theorem Part.settleCurrent_waiting : p.settleCurrent.sched.waiting = p.sched.waiting := by
  cases hc : p.sched.current with
  | none => rw [p.settleCurrent_none hc]
  | some j =>
    by_cases h : p.TakesCurrent j
    · rw [(Part.settleCurrent_taken hc hpass h).1]
    · exact (Part.settleCurrent_kept hc h).2.1

theorem Part.jobsSettled_sched : p.jobsSettled.sched = { p.settleCurrent.sched with waiting := p.staying } := by
  have h := Part.missPassed_sched (p := p.settleCurrent) [] p.sched.waiting (Part.settleCurrent_waiting hpass)
  rw [Part.settleCurrent_tracker] at h
  rw [Part.jobsSettled, Part.settleCurrent_waiting hpass]
  exact h

theorem Part.jobsSettled_records :
    p.settleCurrent.RecordsJoin p.jobsSettled (p.passed.map (Job.record (.missed .passed))) := by
  intro hroom
  have hpass' : p.settleCurrent.tracker.pass.isSome = true := by simpa using hpass
  have h := Part.missPassed_recorder hpass' [] p.settleCurrent.sched.waiting
  rw [Part.settleCurrent_waiting hpass, Part.settleCurrent_tracker] at h
  rw [Part.jobsSettled, Part.settleCurrent_waiting hpass]
  exact h (by simpa [Part.passed] using hroom)

omit hpass in
theorem Part.jobsSettled_head : p.jobsSettled.head = p.settleCurrent.head := by rw [Part.jobsSettled, Part.missPassed_head]

/-! ### The increment whole -/

/-- What is left is ahead of the row index. -/
theorem Part.settleIncrement_waiting : ∀ j ∈ p.settleIncrement.sched.waiting, ¬ j.reached p.tracker.rowIndex = true := by
  intro j hj
  have hstay := p.jobsSettled.nameAndStart_waiting_subset hj
  rw [Part.jobsSettled_sched hpass] at hstay
  simpa using (List.mem_filter.1 hstay).2

theorem Part.settleIncrement_none (hc : p.sched.current = none) :
    p.settleIncrement.jobs.map Job.asQueued = p.staying.map Job.asQueued ∧
      p.RecordsJoin p.settleIncrement (p.passed.map (Job.record (.missed .passed))) := by
  have hsched := Part.jobsSettled_sched hpass
  have hrecords := Part.jobsSettled_records hpass
  rw [p.settleCurrent_none hc] at hsched hrecords
  rw [Part.settleIncrement_eq, Part.nameAndStart_jobs, Part.RecordsJoin, Part.nameAndStart_recorder]
  exact ⟨by simp [Part.jobs, hsched, hc], hrecords⟩

variable {j : Job} (hc : p.sched.current = some j)
include hc

theorem Part.settleIncrement_taken (h : p.TakesCurrent j) :
    p.settleIncrement.jobs.map Job.asQueued = p.staying.map Job.asQueued ∧
      p.RecordsJoin p.settleIncrement (j.record (.missed .notReady) :: p.passed.map (Job.record (.missed .passed))) := by
  obtain ⟨hcurrent, hlate⟩ := Part.settleCurrent_taken hc hpass h
  have hsched := Part.jobsSettled_sched hpass
  rw [hcurrent] at hsched
  rw [Part.settleIncrement_eq, Part.nameAndStart_jobs, Part.RecordsJoin, Part.nameAndStart_recorder]
  exact ⟨by simp [Part.jobs, hsched], hlate.append (Part.jobsSettled_records hpass)⟩

theorem Part.settleIncrement_kept (h : ¬ p.TakesCurrent j) :
    p.settleIncrement.sched.current.map Job.asQueued = some j.asQueued ∧ p.settleIncrement.sched.waiting = p.staying ∧
      p.RecordsJoin p.settleIncrement (p.passed.map (Job.record (.missed .passed))) := by
  obtain ⟨hcurrent, -, hrecorder⟩ := Part.settleCurrent_kept hc h
  have hsched := Part.jobsSettled_sched hpass
  have hrecords := Part.jobsSettled_records hpass
  rw [Part.RecordsJoin, hrecorder] at hrecords
  obtain ⟨i, hi, hij⟩ := Option.map_eq_some_iff.1 hcurrent
  have hnamed := Part.nameAndStart_of_current (p := p.jobsSettled) (j := i) (by rw [hsched, hi])
  rw [hij, hsched] at hnamed
  rw [Part.settleIncrement_eq, Part.RecordsJoin, Part.nameAndStart_recorder]
  exact ⟨hnamed.1, hnamed.2, hrecords⟩

theorem Part.settleIncrement_striking (h : j.state = .striking) :
    p.settleIncrement.sched.current = some j ∧ p.settleIncrement.head = p.head := by
  have hsched := Part.jobsSettled_sched hpass
  have hhead := p.jobsSettled_head
  rw [Part.settleCurrent_alone hc (.inr h)] at hsched hhead
  rw [Part.settleIncrement_eq, Part.nameAndStart_of_busy (j := j) (by rw [hsched, hc]) (by rw [h]; decide), hsched]
  exact ⟨hc, hhead⟩

/-- A QUEUED job taken from a HOMING head: the next one is named for it. -/
theorem Part.settleIncrement_homing (hr : j.reached p.tracker.rowIndex = true) (hq : j.state = .queued)
    (hh : p.head.state = .homing) : p.settleIncrement.head = p.head ∧
      p.settleIncrement.sched.current = p.staying.head? ∧ p.settleIncrement.sched.waiting = p.staying.tail := by
  have hcurrent := Part.settleCurrent_queued hc hr hq
  have hsched := Part.jobsSettled_sched hpass
  have hhead := p.jobsSettled_head
  rw [hcurrent, Part.finishCurrent_sched] at hsched
  rw [hcurrent, Part.finishCurrent_head] at hhead
  have hhoming : p.jobsSettled.head.state = .homing := by rw [hhead, hh]
  have hnamed := Part.nameJob_sched (p := p.jobsSettled) (by rw [hsched]) (Part.headTakesJobs_iff.2 (.inl hhoming))
  rw [Part.settleIncrement_eq, Part.nameAndStart_of_homing hhoming, Part.nameJob_head, hnamed, hsched]
  exact ⟨hhead, rfl, rfl⟩

/-- A PREPARING job taken: it is withdrawn from the PREPARING head, which enters READY, or PARKING with the belt PARKED. -/
theorem Part.jobsSettled_withdrawn (hr : j.reached p.tracker.rowIndex = true) (hs : j.state = .preparing)
    (hh : p.head.state = .preparing) : p.jobsSettled.sched.current = none ∧ p.jobsSettled.sched.waiting = p.staying ∧
      p.jobsSettled.head.inHand = none ∧
      p.jobsSettled.head.state = if p.belt.present = .parked then .parking else .ready := by
  have hcurrent := Part.settleCurrent_preparing hc hr hs
  have hsched := Part.jobsSettled_sched hpass
  rw [(Part.settleCurrent_taken hc hpass ⟨hr, .inr hs⟩).1] at hsched
  rw [hsched, Part.jobsSettled_head, hcurrent, Part.withdraw_of_preparing (by simpa using hh)]
  refine ⟨rfl, rfl, ?_⟩
  split
  · next hb =>
    rw [Part.enterReady_of_parked (by simpa using hb)]
    exact (Part.enterParking_state _).symm
  · next hb =>
    rw [Part.enterReady_of_not_parked (by simpa using hb), Part.enterHead_head]
    exact ⟨rfl, rfl⟩

/-- An ARMED job reached by an ARMED head that has it in hand: the head strikes. -/
theorem Part.settleIncrement_armed (hr : j.reached p.tracker.rowIndex = true) (hs : j.state = .armed)
    (hh : p.head.state = .armed) (hi : p.head.inHand.map InHand.number = some j.info.number) :
    p.settleIncrement.sched.current = some { j with state := .striking } ∧
      p.settleIncrement.head = (({ p.setJobState .striking with head.window := 0 } : Part).enterHead .striking).head := by
  have hcurrent := Part.settleCurrent_armed hc hr hs
  have hsched := Part.jobsSettled_sched hpass
  have hhead := p.jobsSettled_head
  rw [hcurrent, Part.requestStrike_sched] at hsched
  rw [hcurrent, Part.requestStrike_of_armed hh hi] at hhead
  have hstriking : p.jobsSettled.sched.current = some { j with state := .striking } := by
    rw [hsched]
    simp [Part.setJobState, hc]
  rw [Part.settleIncrement_eq, Part.nameAndStart_of_busy hstriking JobState.noConfusion]
  exact ⟨hstriking, hhead⟩

end WaitingSettled

/-- The part with the front row taken, before the scheduler's response (R21, R22). -/
def Part.incremented (p : Part) (r : CondRow) (rest : List CondRow) : Part :=
  ({ p with intake.queue := rest, tracker.rowIndex := p.tracker.rowIndex + 1 }.mark wRow).atStage r (p.firstStage r)

/-- Settles O42: a pass left off right after its increment is the take of the row, and the take's last act is the scheduler's
response, clause by clause. -/
theorem incrementSettlesTheJobs : Obligations.IncrementSettlesTheJobs := by
  intro s r rest hpass hqueue row reached queued stay gone late passed records
  have htake : s.part.rowPass (some 0) = (s.part.incremented r rest).settleIncrement := by
    rw [Part.rowPass_none_pass hpass]
    exact Part.takeRow_eq hqueue
  have hp : (s.part.incremented r rest).tracker.pass.isSome = true := rfl
  have hreached : ∀ j, reached j ↔ j.reached (s.part.incremented r rest).tracker.rowIndex = true :=
    fun j => decide_eq_true_iff.symm
  have htaken : ∀ j, gone j → (s.part.incremented r rest).TakesCurrent j := fun j h => ⟨(hreached j).1 h.1, h.2⟩
  refine ⟨{ s with part := (s.part.incremented r rest).settleIncrement }, by rw [exec_rowPass_eq, htake], rfl, fun j hj h =>
    Part.settleIncrement_waiting hp j hj ((hreached j).1 h), Part.settleIncrement_none hp, fun j hc => ?_⟩
  refine ⟨fun h => Part.settleIncrement_taken hp hc (htaken j h), fun h => Part.settleIncrement_kept hp hc
    (fun ht => h ⟨(hreached j).2 ht.1, ht.2⟩), Part.settleIncrement_striking hp hc,
    fun h => Part.settleIncrement_homing hp hc ((hreached j).1 h.1), fun h hs hh hb => ?ready, fun h hs hh hb => ?parked,
    fun h hs hh hi => ?strike⟩
  case ready =>
    obtain ⟨hcurrent, hwaiting, hhand, hstate⟩ := Part.jobsSettled_withdrawn hp hc ((hreached j).1 h.1) hs hh
    replace hstate := hstate.trans (if_neg hb)
    refine ⟨fun hstay => ?_, fun w ws hstay hw => ?_⟩
    · rw [Part.settleIncrement_eq, Part.nameAndStart_of_no_jobs (by rw [Part.jobs, hcurrent, hwaiting]; exact hstay)]
      exact ⟨hstate, hhand⟩
    · have hnext : (s.part.incremented r rest).jobsSettled.NextJob w ws := .inr ⟨hcurrent, hwaiting.trans hstay⟩
      obtain ⟨hpreparing, hinHand⟩ := (s.part.incremented r rest).jobsSettled.preparingFor_head w ws
      rw [Part.settleIncrement_eq, Part.nameAndStart_of_ready hstate hnext hw, Part.preparingFor_sched]
      exact ⟨hpreparing, rfl, rfl, hinHand⟩
  case parked =>
    obtain ⟨hcurrent, -, hhand, hstate⟩ := Part.jobsSettled_withdrawn hp hc ((hreached j).1 h.1) hs hh
    replace hstate := hstate.trans (if_pos hb)
    rw [Part.settleIncrement_eq, Part.nameAndStart_of_not_taking (by rw [hstate]; decide) (by rw [hstate]; decide)]
    exact ⟨hstate, hhand, hcurrent⟩
  case strike =>
    obtain ⟨hcurrent, hhead⟩ := Part.settleIncrement_armed hp hc ((hreached j).1 h) hs hh hi
    refine ⟨hcurrent, ?_⟩
    dsimp only
    rw [hhead, Part.enterHead_head]
    exact ⟨rfl, rfl, fun hsix => holdAll_hammer hsix .strike⟩

end Sys2Proof.Machine

/-! ## The end of a frame: judging, and a fault condition -/

namespace Sys2Proof.Machine

/-! ### Judging (R138) -/

section Judging

variable (st : HeadState) (base : Option (BitVec 12))

/-- Judging leaves the held command. -/
theorem judgeSlot_held (i : Nat) (s : Slot) (c : SlotCmd) (w : BitVec 16) :
    (judgeSlot i st base s c w).slot.held = s.held := by
  unfold judgeSlot
  dsimp only
  (repeat' split) <;> rfl

theorem judgeAll_held (i : Nat) {ss : List Slot} {cs : List SlotCmd} {ws : List (BitVec 16)} (hc : cs.length = ss.length)
    (hw : ws.length = ss.length) : ((judgeAll st base i ss cs ws).map Judged.slot).map Slot.held = ss.map Slot.held := by
  induction ss generalizing i cs ws with
  | nil => cases cs <;> cases ws <;> rfl
  | cons s ss ih =>
    obtain ⟨c, cs, rfl⟩ := List.exists_cons_of_length_eq_add_one hc
    obtain ⟨w, ws, rfl⟩ := List.exists_cons_of_length_eq_add_one hw
    rw [judgeAll, List.map_cons, List.map_cons, judgeSlot_held, ih (i + 1) (by simpa using hc) (by simpa using hw),
      List.map_cons]

theorem firstFault_cons_eq_none (i : Nat) (j : Judged) (js : List Judged) :
    firstFault i (j :: js) = none ↔ j.fault = none ∧ firstFault (i + 1) js = none := by
  rw [firstFault]
  cases j.fault <;> simp

/-- A word that passes parity and is in no fault condition is decoded. -/
theorem judgeSlot_status {i : Nat} {s : Slot} {c : SlotCmd} {w : BitVec 16} (hp : parityGood w = true)
    (hf : (judgeSlot i st base s c w).fault = none) : (judgeSlot i st base s c w).status = some (decodeStatus w) := by
  have hw : w ≠ 0xFFFF := by
    rintro rfl
    simp [judgeSlot] at hf
  unfold judgeSlot
  rw [if_neg hw, if_neg (by simp [hp])]

end Judging

/-! ### The frame is over (R132, R138, R146) -/

section FrameOver

variable (p : Part)

/-- What judging a frame makes of the slots. -/
def Part.judged (latched : List SlotCmd) (words : List (BitVec 16)) : List Judged :=
  judgeAll p.head.state p.head.hammerCount 0 p.head.slots latched words

theorem Part.keepJudged_held {latched : List SlotCmd} {words : List (BitVec 16)} (hsix : p.head.slots.length = 6)
    (hl : latched.length = 6) (hw : words.length = 6) :
    (p.keepJudged (p.judged latched words)).head.slots.map Slot.held = p.head.slots.map Slot.held :=
  judgeAll_held _ _ 0 (hl.trans hsix.symm) (hw.trans hsix.symm)

theorem Part.keepJudged_six {latched : List SlotCmd} {words : List (BitVec 16)} (hsix : p.head.slots.length = 6)
    (hl : latched.length = 6) (hw : words.length = 6) :
    (p.keepJudged (p.judged latched words)).head.slots.length = 6 := by
  have h := congrArg List.length (p.keepJudged_held hsix hl hw)
  rwa [List.length_map, List.length_map, hsix] at h

/-- What the hammer said, if its word passed parity. -/
def Part.hammerSaid (latched : List SlotCmd) (words : List (BitVec 16)) : Option SlotStatus :=
  ((p.judged latched words)[5]?).bind Judged.status

/-- The hammer's count, where it confirms the strike (R146). -/
def Part.confirmed (latched : List SlotCmd) (words : List (BitVec 16)) : Option (BitVec 12) :=
  if p.afterStrikeFrame latched then confirms p.head.hammerCount (p.hammerSaid latched words) else none

/-- The frame judged and counted, before the head acts on it. -/
def Part.counted (latched : List SlotCmd) (words : List (BitVec 16)) : Part :=
  (p.keepJudged (p.judged latched words)).countFrame (p.afterStrikeFrame latched) latched (p.hammerSaid latched words)

theorem Part.endFrame_eq (latched : List SlotCmd) (words : List (BitVec 16)) : p.endFrame latched words =
    (p.counted latched words).actOnFrame (p.afterStrikeFrame latched) (p.confirmed latched words)
      (firstFault 0 (p.judged latched words)) := rfl

/-- Counting a frame changes the strike window, the hammer's count and the hammer's held command at most. -/
theorem Part.countFrame_frame (after : Bool) (latched : List SlotCmd) (hammer : Option SlotStatus)
    (hsix : p.head.slots.length = 6) : ∃ slots count window, slots.length = 6 ∧ window ≤ p.head.window + 1 ∧
      p.countFrame after latched hammer =
        { p with head.slots := slots, head.hammerCount := count, head.window := window } := by
  unfold Part.countFrame
  split
  · split
    · exact ⟨_, _, _, hsix, Nat.le_refl _, rfl⟩
    · split
      · exact ⟨_, _, _, by simp [holdAll, wheels, hsix], Nat.le_succ _, rfl⟩
      · exact ⟨_, _, _, hsix, Nat.le_succ _, rfl⟩
  · split
    · split
      · exact ⟨_, _, _, hsix, Nat.le_succ _, rfl⟩
      · exact ⟨_, _, _, hsix, Nat.le_succ _, rfl⟩
    · exact ⟨_, _, _, hsix, Nat.le_succ _, rfl⟩

/-- The part when a frame is over, with these values of all that judging, counting and free choices can change. -/
def Part.frameOver (slots : List Slot) (count : Option (BitVec 12)) (window free : Nat) : Part :=
  { p with
    head.slots := slots, head.frame := none, head.hammerCount := count, head.window := window, free := free }

theorem Part.counted_frame {latched : List SlotCmd} {words : List (BitVec 16)} (hsix : p.head.slots.length = 6)
    (hl : latched.length = 6) (hw : words.length = 6) :
    ∃ slots count window, slots.length = 6 ∧ window ≤ p.head.window + 1 ∧
      p.counted latched words = p.frameOver slots count window p.free :=
  (p.keepJudged (p.judged latched words)).countFrame_frame _ latched _ (p.keepJudged_six hsix hl hw)

/-- Where fault conditions are acted on, a frame with one sends the head to FAULTED for its slot; the code may be another only
where the strike window has run out. -/
theorem Part.actOnFrame_fault (after : Bool) (confirmed : Option (BitVec 12)) (i : Nat) (c : FaultCode)
    (hacts : p.head.state.actsOnFaults = true) : ∃ n c', p.actOnFrame after confirmed (some (i, c)) =
      ({ p with free := n } : Part).enterFaulted i c' ∧ (p.windowOver after confirmed = false → c' = c) := by
  unfold Part.actOnFrame
  rw [if_pos hacts]
  split
  · next hover =>
    unfold Part.withNoStrike
    dsimp only
    split
    · next hi => exact ⟨_, _, by rw [hi]; rfl, fun h => absurd (hover.symm.trans h) (by decide)⟩
    · exact ⟨_, _, rfl, fun _ => rfl⟩
  · exact ⟨_, _, rfl, fun _ => rfl⟩

end FrameOver

/-! ### The head enters FAULTED (R127, R136, R141) -/

section Faulted

variable (p : Part) (i : Nat) (c : FaultCode)

/-- The fault noted: the event, and one more link error. -/
def Part.faultNoted : Part :=
  { p.raise .headFault (headFaultArg i c) with
    head.errors := (p.raise .headFault (headFaultArg i c)).head.errors + 1 }.mark wLinkErrors

theorem Part.enterFaulted_eq :
    p.enterFaulted i c = ((p.faultNoted i c).dropInHand.enterHead .faulted).missAll .headFault := rfl

theorem Part.keeps_missAll (r : MissReason) : p.Keeps (p.missAll r) :=
  (p.keeps_finishCurrent _).trans (Part.keeps_missWaiting _ _ _)

theorem Part.enterFaulted_head : (p.enterFaulted i c).head = { p.head with
    errors := p.head.errors + 1, inHand := none, state := .faulted
    slots := holdAll p.head.slots (wheels (some .hold) (some .hold) (some .safe)) } := by
  rw [Part.enterFaulted_eq, Part.missAll_head, Part.enterHead_head]
  simp [Part.faultNoted, entryCommands]

theorem Part.enterFaulted_held (hsix : p.head.slots.length = 6) :
    (p.enterFaulted i c).head.slots.map Slot.held = [.hold, .hold, .hold, .hold, .hold, .safe] := by
  rw [Part.enterFaulted_head]
  exact holdAll_held_every (cmds := [.hold, .hold, .hold, .hold, .hold, .safe]) hsix

theorem Part.enterFaulted_jobs : (p.enterFaulted i c).jobs = [] := Part.missAll_jobs _ _

theorem Part.enterFaulted_dirty (h : p.head.state ≠ .faulted) :
    wLinkErrors ∈ (p.enterFaulted i c).dirty ∧ wBelt ∈ (p.enterFaulted i c).dirty := by
  have hkeeps := ((p.faultNoted i c).dropInHand.enterHead .faulted).keeps_missAll .headFault
  refine ⟨hkeeps.dirty ((Part.keeps_enterHead _ .faulted).dirty ?_), hkeeps.dirty (Part.wBelt_mem_enterHead _ ?_)⟩
  · exact (mem_insertRising _ _ _).2 (.inl rfl)
  · simpa [Part.faultNoted] using h

/-- The event, then the jobs' records, the current job's first (log entry 21). -/
theorem Part.enterFaulted_records (hc : p.lots.closing = none) (hroom : p.recorder.outgoing.length + p.jobs.length < 8) :
    (p.recorder.outgoing ++ .event .headFault p.tracker.rowIndex (headFaultArg i c) ::
      p.jobs.map (Job.record (.missed .headFault))) <+: (p.enterFaulted i c).recorder.outgoing := by
  have hraised := Part.raise_outgoing p .headFault (headFaultArg i c) (by omega)
  have hrecorder : ((p.faultNoted i c).dropInHand.enterHead .faulted).recorder.outgoing =
      p.recorder.outgoing ++ [.event .headFault p.tracker.rowIndex (headFaultArg i c)] := by
    rw [Part.enterHead_recorder]
    exact hraised
  have hjobs : ((p.faultNoted i c).dropInHand.enterHead .faulted).jobs = p.jobs := by simp [Part.jobs, Part.faultNoted]
  have hclosing : ((p.faultNoted i c).dropInHand.enterHead .faulted).lots.closing = none := by
    rw [Part.enterHead_lots]
    exact (p.raise_appends hc .headFault (headFaultArg i c)).closing
  have h := Part.missAll_records hclosing .headFault (by rw [hrecorder, hjobs, List.length_append, List.length_singleton]; omega)
  rw [hrecorder, hjobs, List.append_assoc] at h
  exact h

end Faulted

theorem HeadState.actsOnFaults_iff (st : HeadState) : st.actsOnFaults = true ↔ st ≠ .unknown ∧ st ≠ .faulted := by
  cases st <;> decide

section FaultFound

variable {p : Part} {latched : List SlotCmd} {words : List (BitVec 16)} {i : Nat} {code : FaultCode}

/-- The frame of a fault condition ends in FAULTED. The strike window cannot have run out outside STRIKING or before 15 frames. -/
theorem Part.endFrame_fault (hsix : p.head.slots.length = 6) (hl : latched.length = 6) (hw : words.length = 6)
    (hunknown : p.head.state ≠ .unknown) (hfaulted : p.head.state ≠ .faulted)
    (hfault : firstFault 0 (p.judged latched words) = some (i, code)) :
    ∃ slots count window n c', slots.length = 6 ∧
      p.endFrame latched words = (p.frameOver slots count window n).enterFaulted i c' ∧
        (p.head.state ≠ .striking ∨ p.head.window < 15 → c' = code) := by
  obtain ⟨slots, count, window, hslots, hwindow, hcounted⟩ := p.counted_frame hsix hl hw
  obtain ⟨n, c', hacted, hcode⟩ := (p.counted latched words).actOnFrame_fault (p.afterStrikeFrame latched)
    (p.confirmed latched words) i code (by rw [hcounted]; exact (HeadState.actsOnFaults_iff _).2 ⟨hunknown, hfaulted⟩)
  rw [hcounted] at hacted hcode
  refine ⟨slots, count, window, n, c', hslots, by rw [Part.endFrame_eq, hfault, hcounted, hacted]; rfl, fun h => hcode ?_⟩
  unfold Part.windowOver
  rcases h with h | h
  · simp [Part.afterStrikeFrame, h]
  · have hearly : ¬ 16 ≤ (p.frameOver slots count window p.free).head.window := show ¬ 16 ≤ window by omega
    simp [hearly]

theorem Part.endFrameIfSent_of_frame {f : Frame} (h : p.head.frame = some f) (words : List (BitVec 16)) :
    p.endFrameIfSent words = p.endFrame f.latched words := by
  unfold Part.endFrameIfSent
  rw [h]

end FaultFound

/-- FRAME_END of a frame that was sent, on the part. -/
theorem exec_frameEnd_eq {s : State} {f : Frame} (h : s.part.head.frame = some f) (a b c d e x : BitVec 16) :
    exec (.frameEnd a b c d e x) s = .next { s with part := s.part.endFrame f.latched [a, b, c, d, e, x] } := by
  rw [← Part.endFrameIfSent_of_frame h]
  rfl

/-- Settles O45: the frame's fault condition is an entry to FAULTED, and what the entry does is said of it alone. -/
theorem faultEndsTheJobs : Obligations.FaultEndsTheJobs := by
  intro s f a b c d e h i code hframe hsix hlatched hunknown hfaulted hfault
  obtain ⟨slots, count, window, n, c', hslots, hend, hcode⟩ :=
    Part.endFrame_fault (p := s.part) (words := [a, b, c, d, e, h]) hsix hlatched rfl hunknown hfaulted hfault
  refine ⟨_, exec_frameEnd_eq hframe a b c d e h, rfl, ?_⟩
  dsimp only
  rw [hend]
  obtain ⟨hlinkErrors, hbelt⟩ := (s.part.frameOver slots count window n).enterFaulted_dirty i c' hfaulted
  have hhead := (s.part.frameOver slots count window n).enterFaulted_head i c'
  refine ⟨congrArg HeadLink.state hhead, congrArg HeadLink.frame hhead, congrArg HeadLink.inHand hhead,
    Part.enterFaulted_jobs _ i c', congrArg HeadLink.errors hhead, Part.enterFaulted_held _ i c' hslots,
    Part.enterFaulted_belt _ i c',
    by rw [Part.enterFaulted_tracker]; rfl, hlinkErrors, hbelt, fun hearly hclosing hroom => ?_⟩
  rw [hcode hearly]
  exact (s.part.frameOver slots count window n).enterFaulted_records i code hclosing hroom

end Sys2Proof.Machine

/-! ## The end of a frame: modules at their targets, and the strike confirmed -/

namespace Sys2Proof.Machine

/-! ### A frame without a fault condition -/

section NoFault

theorem firstFault_eq_none_iff (i : Nat) (js : List Judged) : firstFault i js = none ↔ ∀ j ∈ js, j.fault = none := by
  induction js generalizing i with
  | nil => simp [firstFault]
  | cons j js ih => rw [firstFault_cons_eq_none, ih, List.forall_mem_cons]

theorem judgeAll_getElem? (st : HeadState) (base : Option (BitVec 12)) (i : Nat) {k : Nat} {ss : List Slot}
    {cs : List SlotCmd} {ws : List (BitVec 16)} {s : Slot} {c : SlotCmd} {w : BitVec 16} (hs : ss[k]? = some s)
    (hc : cs[k]? = some c) (hw : ws[k]? = some w) :
    (judgeAll st base i ss cs ws)[k]? = some (judgeSlot (i + k) st base s c w) := by
  induction ss generalizing i k cs ws with
  | nil => simp at hs
  | cons s' ss ih =>
    cases cs with
    | nil => simp at hc
    | cons c' cs =>
      cases ws with
      | nil => simp at hw
      | cons w' ws =>
        rw [judgeAll]
        cases k with
        | zero =>
          rw [List.getElem?_cons_zero, Option.some_inj] at hs hc hw ⊢
          rw [hs, hc, hw, Nat.add_zero]
        | succ k =>
          rw [List.getElem?_cons_succ] at hs hc hw ⊢
          rw [ih (i + 1) hs hc hw, Nat.add_right_comm, Nat.add_assoc]

variable {p : Part} {latched : List SlotCmd} {words : List (BitVec 16)}

/-- The head acts, where a frame has no fault condition and the strike window has not run out (R141). -/
theorem Part.actOnFrame_headActs {after : Bool} {confirmed : Option (BitVec 12)} (hacts : p.head.state.actsOnFaults = true)
    (hover : p.windowOver after confirmed = false) : p.actOnFrame after confirmed none = p.headActs confirmed := by
  unfold Part.actOnFrame
  rw [if_pos hacts, hover]
  rfl

/-- In STRIKING a frame after the STRIKE frame counts (R146). -/
theorem Part.countFrame_after (hst : p.head.state = .striking) (hammer : Option SlotStatus) :
    p.countFrame true latched hammer = { p with head.window := p.head.window + 1 } := by
  unfold Part.countFrame
  rw [if_pos hst, if_pos rfl]

/-- Outside STRIKING an IDLE hammer that answers the held command gives the count (R138). -/
theorem Part.countFrame_idle (hst : p.head.state ≠ .striking) (after : Bool) (v : BitVec 12)
    (hheld : latched.getD 5 .safe = (p.head.slots.getD 5 (Slot.powerOn .safe)).held) :
    p.countFrame after latched (some (.idle v)) = { p with head.hammerCount := some v } := by
  unfold Part.countFrame
  rw [if_neg hst]
  exact if_pos hheld

end NoFault

/-! ### The strike confirmed (R123, R146) -/

section Strike

variable {p : Part}

/-- A command that a slot holds, read off the list of the held commands. -/
theorem getD_held (slots : List Slot) (i : Nat) :
    (slots.getD i (Slot.powerOn .safe)).held = ((slots[i]?).map Slot.held).getD .safe := by
  rw [List.getD_eq_getElem?_getD]
  cases slots[i]? <;> rfl

/-- After the STRIKE frame a hammer's count one up confirms the strike, whatever the other words say short of a fault. -/
theorem Part.endFrame_confirmed {latched : List SlotCmd} {words : List (BitVec 16)} {base : BitVec 12} {w : BitVec 16}
    (hst : p.head.state = .striking) (hcount : p.head.hammerCount = some base) (hlatched : latched[5]? = some .arm)
    (hheld : (p.head.slots[5]?).map Slot.held = some .arm) (hw : words[5]? = some w)
    (hfault : firstFault 0 (p.judged latched words) = none) (hp : parityGood w = true)
    (hidle : decodeStatus w = .idle (base + 1)) : p.endFrame latched words =
      (p.frameOver ((p.judged latched words).map Judged.slot) (some base) (p.head.window + 1) p.free).confirmStrike
        (base + 1) := by
  obtain ⟨s, hs, -⟩ := Option.map_eq_some_iff.1 hheld
  have hjudged : (p.judged latched words)[5]? = some (judgeSlot 5 p.head.state p.head.hammerCount s .arm w) :=
    judgeAll_getElem? _ _ 0 hs hlatched hw
  have hsaid : p.hammerSaid latched words = some (.idle (base + 1)) := by
    have hclean := (firstFault_eq_none_iff _ _).1 hfault _ (List.mem_of_getElem? hjudged)
    rw [Part.hammerSaid, hjudged, Option.bind_some, judgeSlot_status _ _ hp hclean, hidle]
  have hafter : p.afterStrikeFrame latched = true := by
    have hsent : (p.head.slots.getD 5 (Slot.powerOn .safe)).held = .arm := by rw [getD_held, hheld]; rfl
    have hnot : latched.getD 5 .safe = .arm := by rw [List.getD_eq_getElem?_getD, hlatched]; rfl
    rw [Part.afterStrikeFrame, Part.strikeSent, hst, hsent, hnot]
    rfl
  have hconfirmed : p.confirmed latched words = some (base + 1) := by
    rw [Part.confirmed, if_pos hafter, hsaid, hcount]
    exact if_pos rfl
  have hcounted : p.counted latched words =
      p.frameOver ((p.judged latched words).map Judged.slot) (some base) (p.head.window + 1) p.free := by
    rw [Part.counted, hafter, Part.countFrame_after (p := p.keepJudged (p.judged latched words)) hst, ← hcount]
    rfl
  have hacts : (p.counted latched words).headActs (some (base + 1)) = (p.counted latched words).confirmStrike (base + 1) := by
    have hstriking : (p.counted latched words).head.state = .striking := by rw [hcounted]; exact hst
    unfold Part.headActs
    rw [hstriking]
  rw [Part.endFrame_eq, hconfirmed, hfault, Part.actOnFrame_headActs, hacts, hcounted]
  · rw [hcounted]
    exact (HeadState.actsOnFaults_iff _).2 ⟨by rw [Part.frameOver, hst]; decide, by rw [Part.frameOver, hst]; decide⟩
  · simp [Part.windowOver]

/-- The part with the hammer's new count and no current job. -/
def Part.struck (p : Part) (count : BitVec 12) : Part := { p with head.hammerCount := some count, sched.current := none }

/-- The part with a STRIKING job stamped and gone, before the head enters its next state. -/
def Part.stamped (p : Part) (count : BitVec 12) (j : Job) : Part := ((p.struck count).finishJob j .stamped).dropInHand

theorem Part.confirmStrike_eq {j : Job} (hc : p.sched.current = some j) (hs : j.state = .striking) (count : BitVec 12) :
    p.confirmStrike count = (p.stamped count j).enterReady.nameAndStart := by
  have hfinish : ({ p with head.hammerCount := some count } : Part).finishStriking .stamped =
      (p.struck count).finishJob j .stamped := by
    unfold Part.finishStriking
    dsimp only
    rw [hc]
    dsimp only
    rw [if_pos hs, Part.finishCurrent_of_some (p := { p with head.hammerCount := some count }) hc]
    rfl
  rw [Part.confirmStrike, hfinish]
  rfl

theorem Part.stamped_head (count : BitVec 12) (j : Job) :
    (p.stamped count j).head = { p.head with hammerCount := some count, inHand := none } := by
  rw [Part.stamped, Part.dropInHand_head, Part.finishJob_head]
  rfl

theorem Part.stamped_sched (count : BitVec 12) (j : Job) : (p.stamped count j).sched = { p.sched with current := none } := by
  rw [Part.stamped, Part.dropInHand_sched, Part.finishJob_sched]
  rfl

theorem Part.stamped_belt (count : BitVec 12) (j : Job) : (p.stamped count j).belt = p.belt := by
  simp [Part.stamped, Part.struck]

theorem Part.stamped_outgoing (count : BitVec 12) (j : Job) (hsnapshot : p.setup.snapshot = none)
    (hclosing : p.lots.closing = none) (hroom : p.recorder.outgoing.length < 8) :
    (p.stamped count j).recorder.outgoing = p.recorder.outgoing ++ [j.record .stamped] := by
  have hquiet : ((p.struck count).release j.info .stamped (some j.strikeRow)).setup.snapshot = none := by
    rw [Part.release_setup]
    exact hsnapshot
  rw [Part.stamped, Part.dropInHand_recorder, Part.finishJob_eq_of_none (p := p.struck count) hclosing,
    Part.applySnapshotIfQuiet_waits _ (.inl hquiet)]
  exact Part.release_outgoing (p := p.struck count) _ _ _ hroom

end Strike

/-! ### The entry to READY and the next job -/

section Next

variable {p : Part}

/-- Of the head link the state, the held commands and the job in hand change at most. -/
def HeadLink.Moves (x y : HeadLink) : Prop := ∃ st slots hand, y = { x with state := st, slots := slots, inHand := hand }

theorem HeadLink.Moves.trans {x y z : HeadLink} (h : x.Moves y) (h' : y.Moves z) : x.Moves z := by
  obtain ⟨_, _, _, rfl⟩ := h
  obtain ⟨_, _, _, rfl⟩ := h'
  exact ⟨_, _, _, rfl⟩

theorem Part.startJob_moves (p : Part) : p.head.Moves p.startJob.head := by
  unfold Part.startJob
  split
  · split
    · rw [Part.setJobState_head, Part.enterHead_head]
      exact ⟨_, _, _, rfl⟩
    · exact ⟨_, _, _, rfl⟩
  · exact ⟨_, _, _, rfl⟩

theorem Part.enterReady_moves (p : Part) : p.head.Moves p.enterReady.head := by
  unfold Part.enterReady
  split
  · rw [Part.enterParking_head, Part.enterHead_head]
    exact ⟨_, _, _, rfl⟩
  · rw [Part.enterHead_head]
    exact ⟨_, _, _, rfl⟩

theorem Part.enterReady_nameAndStart_moves (p : Part) : p.head.Moves p.enterReady.nameAndStart.head := by
  have hstarted := p.enterReady.nameJob.startJob_moves
  rw [Part.nameJob_head] at hstarted
  exact p.enterReady_moves.trans hstarted

end Next

/-! ### What the confirmation comes to (R117, R144) -/

section Confirmed

variable {p : Part} {j : Job} (hc : p.sched.current = some j) (hs : j.state = .striking) (count : BitVec 12)
include hc hs

theorem Part.confirmStrike_head : (p.confirmStrike count).head.frame = p.head.frame ∧
    (p.confirmStrike count).head.hammerCount = some count ∧ (p.confirmStrike count).head.errors = p.head.errors := by
  obtain ⟨st, slots, hand, hmoves⟩ := (p.stamped count j).enterReady_nameAndStart_moves
  rw [Part.confirmStrike_eq hc hs, hmoves, Part.stamped_head]
  exact ⟨rfl, rfl, rfl⟩

theorem Part.confirmStrike_belt : (p.confirmStrike count).belt = p.belt := by
  rw [Part.confirmStrike_eq hc hs, Part.nameAndStart_belt, Part.enterReady_belt, Part.stamped_belt]

theorem Part.confirmStrike_outgoing (hsnapshot : p.setup.snapshot = none) (hclosing : p.lots.closing = none)
    (hroom : p.recorder.outgoing.length < 8) :
    (p.confirmStrike count).recorder.outgoing = p.recorder.outgoing ++ [j.record .stamped] := by
  rw [Part.confirmStrike_eq hc hs, Part.nameAndStart_recorder, Part.enterReady_recorder,
    Part.stamped_outgoing _ _ hsnapshot hclosing hroom]

theorem Part.confirmStrike_idle (hb : p.belt.present ≠ .parked) (hw : p.sched.waiting = []) :
    (p.confirmStrike count).head.state = .ready ∧ (p.confirmStrike count).head.inHand = none ∧
      (p.confirmStrike count).jobs = [] := by
  have hjobs : (p.stamped count j).jobs = [] := by rw [Part.jobs, Part.stamped_sched]; simpa using hw
  rw [Part.confirmStrike_eq hc hs, Part.enterReady_nameAndStart_idle (by rwa [Part.stamped_belt]) hjobs, Part.enterHead_head,
    Part.stamped_head]
  exact ⟨rfl, rfl, by rw [Part.jobs, Part.enterHead_sched]; exact hjobs⟩

theorem Part.confirmStrike_next {w : Job} {rest : List Job} (hb : p.belt.present ≠ .parked) (hw : p.sched.waiting = w :: rest)
    (hq : w.state = .queued) :
    (p.confirmStrike count).head.state = .preparing ∧
      (p.confirmStrike count).sched.current = some { w with state := .preparing } ∧
      (p.confirmStrike count).sched.waiting = rest ∧ (p.confirmStrike count).head.inHand = some w.toHand := by
  have hnext : (p.stamped count j).NextJob w rest := by
    rw [Part.NextJob, Part.stamped_sched]
    exact .inr ⟨rfl, hw⟩
  obtain ⟨hpreparing, hhand⟩ := ((p.stamped count j).enterHead .ready).preparingFor_head w rest
  rw [Part.confirmStrike_eq hc hs, Part.enterReady_nameAndStart_next (by rwa [Part.stamped_belt]) hnext hq,
    Part.preparingFor_sched]
  exact ⟨hpreparing, rfl, rfl, hhand⟩

theorem Part.confirmStrike_parked (hb : p.belt.present = .parked) :
    (p.confirmStrike count).head.state = .parking ∧ (p.confirmStrike count).head.inHand = none ∧
      (p.confirmStrike count).jobs = p.sched.waiting := by
  have hsched : (p.stamped count j).enterParking.sched = { p.sched with current := none } := by
    rw [Part.enterParking_leaves, Part.stamped_sched]
    rw [Part.stamped_sched]
    exact fun _ h => absurd h (by simp)
  obtain ⟨hstate, hhand⟩ := (p.stamped count j).enterParking_state
  rw [Part.confirmStrike_eq hc hs, Part.enterReady_nameAndStart_parked (by rwa [Part.stamped_belt]), Part.jobs, hsched]
  exact ⟨hstate, hhand, rfl⟩

end Confirmed

/-- Settles O48: the frame confirms the strike (`Part.endFrame_confirmed`); the job leaves STAMPED, and an entry to READY
follows. -/
theorem strikeIsConfirmed : Obligations.StrikeIsConfirmed := by
  intro s f j a b c d e h base hframe hst _ _ hlatched hheld hcount hfault hp hidle hcurrent hj hsnapshot hclosing hroom
  have hend : s.part.endFrame f.latched [a, b, c, d, e, h] = _ :=
    Part.endFrame_confirmed (words := [a, b, c, d, e, h]) hst hcount hlatched hheld rfl
      (by rw [Part.judged, hst, hcount]; exact hfault) hp hidle
  have hc : (s.part.frameOver ((s.part.judged f.latched [a, b, c, d, e, h]).map Judged.slot) (some base)
    (s.part.head.window + 1) s.part.free).sched.current = some j := hcurrent
  obtain ⟨hnone, hcounted, herrors⟩ := Part.confirmStrike_head hc hj (base + 1)
  refine ⟨_, exec_frameEnd_eq hframe a b c d e h, rfl, ?_⟩
  dsimp only
  rw [hend]
  exact ⟨hnone, hcounted, Part.confirmStrike_outgoing hc hj _ hsnapshot hclosing hroom, herrors,
    Part.confirmStrike_belt hc hj _, Part.confirmStrike_idle hc hj _,
    fun w rest hb hw hq => Part.confirmStrike_next hc hj _ hb hw hq, Part.confirmStrike_parked hc hj _⟩

end Sys2Proof.Machine

/-! ## The end of a frame: homing ends, PREPARING is ARMED, PARKING is HEAD_PARKED -/

namespace Sys2Proof.Machine

/-! ### Words that answer the held commands (R138, R140) -/

section Answered

/-- A slot whose word has passed parity and has answered the held command. -/
def Slot.answered (s : Slot) (w : BitVec 16) : Slot := { s with run := 0, latest := decodeStatus w }

theorem judgeSlot_answered {st : HeadState} (base : Option (BitVec 12)) (i : Nat) (s : Slot) {w : BitVec 16}
    (hst : st ≠ .faulted) (hp : parityGood w = true) (hw : w ≠ 0xFFFF) : judgeSlot i st base s s.held w =
      { slot := s.answered w, fault := statusFault i st base s.held s.held (decodeStatus w)
        status := some (decodeStatus w) } := by
  unfold judgeSlot
  rw [if_neg hw, if_neg (by simp [hp])]
  simp [hst, Slot.answered]

/-- The word reports IDLE, at the target if the command has one. -/
def SlotCmd.metBy (slot : Nat) (c : SlotCmd) (w : BitVec 16) : Prop :=
  ∃ v, decodeStatus w = .idle v ∧ ∀ t, c.targetValue slot = some t → t = v

theorem statusFault_of_metBy {st : HeadState} (base : Option (BitVec 12)) {i : Nat} {c : SlotCmd} {w : BitVec 16}
    (hst : st ≠ .striking) (h : c.metBy i w) : statusFault i st base c c (decodeStatus w) = none := by
  obtain ⟨v, hv, ht⟩ := h
  rw [hv]
  unfold statusFault
  dsimp only
  rw [if_neg, if_neg (fun h => hst h.2.1)]
  rintro ⟨-, hmiss⟩
  obtain ⟨t, htarget, hne⟩ := (Option.any_eq_true _ _).1 hmiss
  exact of_decide_eq_true hne (ht t htarget)

theorem SlotCmd.metBy.target {i : Nat} {c : SlotCmd} {w : BitVec 16} {t : BitVec 12} (hw : decodeStatus w = .idle t)
    (hc : c.targetValue i = some t) : c.metBy i w := ⟨t, hw, fun _ hu => Option.some.inj (hu.symm.trans hc)⟩

theorem SlotCmd.metBy.free {i : Nat} {c : SlotCmd} {w : BitVec 16} {v : BitVec 12} (hw : decodeStatus w = .idle v)
    (hc : c.targetValue i = none) : c.metBy i w := ⟨v, hw, fun _ hu => absurd (hu.symm.trans hc) (by simp)⟩

/-- Slot by slot from slot `i` on, the words meet the commands. -/
def AllMet : Nat → List SlotCmd → List (BitVec 16) → Prop
  | i, c :: cs, w :: ws => c.metBy i w ∧ AllMet (i + 1) cs ws
  | _, _, _ => True

variable {st : HeadState} (base : Option (BitVec 12)) (hst : st ≠ .faulted)
include hst

theorem judgeAll_slots (i : Nat) {ss : List Slot} {ws : List (BitVec 16)}
    (hw : ∀ w ∈ ws, parityGood w = true ∧ w ≠ 0xFFFF) :
    (judgeAll st base i ss (ss.map Slot.held) ws).map Judged.slot = List.zipWith Slot.answered ss ws := by
  induction ss generalizing i ws with
  | nil => rfl
  | cons s ss ih =>
    cases ws with
    | nil => rfl
    | cons w ws =>
      obtain ⟨⟨hp, hne⟩, hw⟩ := List.forall_mem_cons.1 hw
      rw [List.map_cons, judgeAll, List.map_cons, ih (i + 1) hw, judgeSlot_answered base i s hst hp hne]
      rfl

theorem judgeAll_no_fault (hns : st ≠ .striking) (i : Nat) {ss : List Slot} {ws : List (BitVec 16)}
    (hw : ∀ w ∈ ws, parityGood w = true ∧ w ≠ 0xFFFF) (hm : AllMet i (ss.map Slot.held) ws) :
    firstFault i (judgeAll st base i ss (ss.map Slot.held) ws) = none := by
  induction ss generalizing i ws with
  | nil => rfl
  | cons s ss ih =>
    cases ws with
    | nil => rfl
    | cons w ws =>
      obtain ⟨⟨hp, hne⟩, hw⟩ := List.forall_mem_cons.1 hw
      obtain ⟨hmet, hm⟩ := hm
      rw [List.map_cons, judgeAll, firstFault_cons_eq_none, judgeSlot_answered base i s hst hp hne]
      exact ⟨statusFault_of_metBy base hns hmet, ih (i + 1) hw hm⟩

end Answered

section AtTargets

theorem zipWith_answered_held {slots : List Slot} {words : List (BitVec 16)} (h : words.length = slots.length) :
    (List.zipWith Slot.answered slots words).map Slot.held = slots.map Slot.held := by
  induction slots generalizing words with
  | nil => simp
  | cons s slots ih =>
    obtain ⟨w, words, rfl⟩ := List.exists_cons_of_length_eq_add_one h
    rw [List.zipWith_cons_cons, List.map_cons, List.map_cons, ih (by simpa using h)]
    rfl

variable {p : Part} {words : List (BitVec 16)} {v : BitVec 12}

/-- The part when a frame is over whose words have all answered, the hammer with count `v`. -/
def Part.answered (p : Part) (words : List (BitVec 16)) (v : BitVec 12) : Part :=
  p.frameOver (List.zipWith Slot.answered p.head.slots words) (some v) p.head.window p.free

theorem Part.answered_held (h : words.length = p.head.slots.length) :
    (p.answered words v).head.slots.map Slot.held = p.head.slots.map Slot.held := zipWith_answered_held h

theorem Part.answered_length (h : words.length = p.head.slots.length) :
    (p.answered words v).head.slots.length = p.head.slots.length := by
  rw [← List.length_map (f := Slot.held), Part.answered_held h, List.length_map]

/-- The states in which the head waits for its modules (R143, R145, R148). -/
def HeadState.Waits (st : HeadState) : Prop := st = .homing ∨ st = .preparing ∨ st = .parking

theorem HeadState.Waits.ne {st : HeadState} (h : st.Waits) : st ≠ .unknown ∧ st ≠ .faulted ∧ st ≠ .striking := by
  rcases h with rfl | rfl | rfl <;> decide

/-- In these states words that meet every held command let the head act. -/
theorem Part.endFrame_met {latched : List SlotCmd} {w : BitVec 16} (hst : p.head.state.Waits)
    (hheld : p.head.slots.map Slot.held = latched) (hsix : latched.length = 6) (hlength : words.length = 6)
    (hw : ∀ w ∈ words, parityGood w = true ∧ w ≠ 0xFFFF) (h5 : words[5]? = some w) (hv : decodeStatus w = .idle v)
    (hm : AllMet 0 latched words) : p.endFrame latched words = (p.answered words v).headActs none := by
  obtain ⟨hunknown, hfaulted, hns⟩ := hst.ne
  subst hheld
  rw [List.length_map] at hsix
  obtain ⟨s, hs⟩ : ∃ s, p.head.slots[5]? = some s := ⟨_, List.getElem?_eq_getElem (by omega)⟩
  obtain ⟨hp, hne⟩ := hw w (List.mem_of_getElem? h5)
  have hafter : p.afterStrikeFrame (p.head.slots.map Slot.held) = false := by simp [Part.afterStrikeFrame, hns]
  have hslots : (p.judged (p.head.slots.map Slot.held) words).map Judged.slot =
      List.zipWith Slot.answered p.head.slots words := judgeAll_slots _ hfaulted 0 hw
  have hsaid : p.hammerSaid (p.head.slots.map Slot.held) words = some (.idle v) := by
    have hjudged : (p.judged (p.head.slots.map Slot.held) words)[5]? = _ :=
      judgeAll_getElem? p.head.state p.head.hammerCount 0 hs (by rw [List.getElem?_map, hs]; rfl) h5
    rw [Part.hammerSaid, hjudged, judgeSlot_answered _ _ _ hfaulted hp hne, hv]
    rfl
  have hcounted : p.counted (p.head.slots.map Slot.held) words = p.answered words v := by
    have hhammer : (p.head.slots.map Slot.held).getD 5 .safe =
        ((p.keepJudged (p.judged (p.head.slots.map Slot.held) words)).head.slots.getD 5 (Slot.powerOn .safe)).held := by
      rw [getD_held, ← List.getElem?_map, p.keepJudged_held hsix (by simpa using hsix) hlength, List.getD_eq_getElem?_getD]
    rw [Part.counted, hafter, hsaid, Part.countFrame_idle (p := p.keepJudged (p.judged (p.head.slots.map Slot.held) words))
      hns _ _ hhammer, Part.answered, ← hslots]
    rfl
  have hclean : firstFault 0 (p.judged (p.head.slots.map Slot.held) words) = none := judgeAll_no_fault _ hfaulted hns 0 hw hm
  have hconfirmed : p.confirmed (p.head.slots.map Slot.held) words = none := by
    rw [Part.confirmed, hafter]
    rfl
  rw [Part.endFrame_eq, hclean, hconfirmed, hcounted, hafter, Part.actOnFrame_headActs]
  · exact (HeadState.actsOnFaults_iff _).2 ⟨hunknown, hfaulted⟩
  · rfl

/-- All six modules IDLE, read off the words. -/
theorem movesDone_answered {slots : List Slot} {a b c d e h : BitVec 16} {x w1 w2 w3 w4 : BitVec 12} (hsix : slots.length = 6)
    (ha : decodeStatus a = .idle x) (hb : decodeStatus b = .idle w1) (hc : decodeStatus c = .idle w2)
    (hd : decodeStatus d = .idle w3) (he : decodeStatus e = .idle w4) :
    movesDone (List.zipWith Slot.answered slots [a, b, c, d, e, h]) x w1 w2 w3 w4 = true := by
  obtain ⟨s0, s1, s2, s3, s4, s5, rfl⟩ := eq_six_of_length hsix
  simp [movesDone, Slot.idleAt, Slot.answered, ha, hb, hc, hd, he]

theorem hammerIdle_answered {slots : List Slot} {a b c d e h : BitVec 16} (hsix : slots.length = 6)
    (hh : decodeStatus h = .idle v) : hammerIdle (List.zipWith Slot.answered slots [a, b, c, d, e, h]) = true := by
  obtain ⟨s0, s1, s2, s3, s4, s5, rfl⟩ := eq_six_of_length hsix
  simp [hammerIdle, Slot.isIdle, Slot.answered, hh]

theorem restingAt_answered {slots : List Slot} {a b c d e h : BitVec 16} {x : BitVec 12} (hsix : slots.length = 6)
    (ha : decodeStatus a = .idle x) (hw : ∀ w ∈ [b, c, d, e], decodeStatus w = .idle 10) (hh : decodeStatus h = .idle v) :
    restingAt (List.zipWith Slot.answered slots [a, b, c, d, e, h]) x = true := by
  obtain ⟨hb, hc, hd, he, -⟩ := by simpa only [List.forall_mem_cons] using hw
  rw [restingAt, Bool.and_eq_true]
  exact ⟨movesDone_answered hsix ha hb hc hd he, hammerIdle_answered hsix hh⟩

/-! ### What the head does -/

theorem Part.headActs_homing (h : p.head.state = .homing) (hr : restingAt p.head.slots carriageHome = true)
    (c : Option (BitVec 12)) : p.headActs c = p.enterReady.nameAndStart := by
  unfold Part.headActs
  rw [h]
  exact if_pos hr

theorem Part.headActs_preparing (h : p.head.state = .preparing) (ht : p.atTargets = true) (c : Option (BitVec 12)) :
    p.headActs c = (p.enterHead .armed).setJobState .armed := by
  unfold Part.headActs
  rw [h]
  exact if_pos ht

theorem Part.headActs_parking (h : p.head.state = .parking) (hr : restingAt p.head.slots carriagePark = true)
    (c : Option (BitVec 12)) : p.headActs c = p.enterHead .headParked := by
  unfold Part.headActs
  rw [h]
  exact if_pos hr

end AtTargets

/-! ### Homing is complete (R143, R144, R128) -/

section Homed

variable (p : Part)

theorem Part.homed_head : p.enterReady.nameAndStart.head.frame = p.head.frame ∧
    p.enterReady.nameAndStart.head.hammerCount = p.head.hammerCount ∧
    p.enterReady.nameAndStart.head.errors = p.head.errors := by
  obtain ⟨st, slots, hand, hmoves⟩ := p.enterReady_nameAndStart_moves
  rw [hmoves]
  exact ⟨rfl, rfl, rfl⟩

variable {p}

theorem Part.homed_idle (hjobs : p.jobs = []) : p.enterReady.nameAndStart.jobs = [] ∧
    (p.belt.present ≠ .parked → p.enterReady.nameAndStart.head.state = .ready) := by
  by_cases hb : p.belt.present = .parked
  · have hnone : ∀ j, p.sched.current = some j → j.state = .striking := fun j hj => by
      rw [Part.jobs, hj] at hjobs
      exact absurd hjobs (by simp)
    rw [Part.enterReady_nameAndStart_parked hb, Part.jobs, Part.enterParking_leaves hnone]
    exact ⟨hjobs, fun h => absurd hb h⟩
  · rw [Part.enterReady_nameAndStart_idle hb hjobs, Part.jobs, Part.enterHead_sched, Part.enterHead_head]
    exact ⟨hjobs, fun _ => rfl⟩

theorem Part.homed_next {j : Job} {rest : List Job} (hsix : p.head.slots.length = 6) (hb : p.belt.present ≠ .parked)
    (hq : j.state = .queued) (hj : p.NextJob j rest) :
    p.enterReady.nameAndStart.head.state = .preparing ∧
      p.enterReady.nameAndStart.sched.current = some { j with state := .preparing } ∧
      p.enterReady.nameAndStart.sched.waiting = rest ∧ p.enterReady.nameAndStart.head.inHand = some j.toHand ∧
      p.enterReady.nameAndStart.head.slots.map Slot.held = [.goto j.target, .set j.symbols.w1, .set j.symbols.w2,
        .set j.symbols.w3, .set j.symbols.w4, .safe] := by
  obtain ⟨hpreparing, hhand⟩ := (p.enterHead .ready).preparingFor_head j rest
  have hsix' : (p.enterHead .ready).head.slots.length = 6 := by
    rw [Part.enterHead_head]
    simp [holdAll, entryCommands_length, hsix]
  rw [Part.enterReady_nameAndStart_next hb hj hq]
  exact ⟨hpreparing, by rw [Part.preparingFor_sched], by rw [Part.preparingFor_sched], hhand,
    Part.preparingFor_held _ _ _ hsix'⟩

theorem Part.homed_parked (hsix : p.head.slots.length = 6) (hb : p.belt.present = .parked) :
    p.enterReady.nameAndStart.head.state = .parking ∧
      p.enterReady.nameAndStart.head.slots.map Slot.held = [.park, .set 10, .set 10, .set 10, .set 10, .safe] := by
  rw [Part.enterReady_nameAndStart_parked hb]
  exact ⟨p.enterParking_state.1, p.enterParking_held hsix⟩

theorem Part.homed_returns {j : Job} (hb : p.belt.present = .parked) (hc : p.sched.current = some j)
    (hs : j.state ≠ .striking) : p.enterReady.nameAndStart.sched.current = none ∧
      p.enterReady.nameAndStart.sched.waiting = (p.placeJob j).sched.waiting := by
  rw [Part.enterReady_nameAndStart_parked hb]
  exact Part.enterParking_returns hc hs

end Homed

/-- Settles O47: in each state the words meet every held command, so no fault condition stands in the way and the head acts. -/
theorem homingCompletes : Obligations.HomingCompletes := by
  intro s a b c d e h v
  refine ⟨fun hframe => ?none, fun f hframe hheld hw hv => ⟨_, exec_frameEnd_eq hframe a b c d e h, rfl, ?homing, ?preparing,
    ?parking⟩⟩
  case none =>
    have hstay : s.part.endFrameIfSent [a, b, c, d, e, h] = s.part := by
      unfold Part.endFrameIfSent
      rw [hframe]
    exact congrArg Host.Outcome.next (State.onPart_of_eq (f := fun p => p.endFrameIfSent [a, b, c, d, e, h]) hstay)
  all_goals
    dsimp only
    have hlength : f.latched.length = 6 → s.part.head.slots.length = 6 := by rw [← hheld, List.length_map]; exact id
  case homing =>
    intro hst hlatched ha hwheels
    have hslots := hlength (congrArg List.length hlatched)
    obtain ⟨hb, hc, hd, he, -⟩ := by simpa only [List.forall_mem_cons] using hwheels
    have hmet : AllMet 0 f.latched [a, b, c, d, e, h] := by
      rw [hlatched]
      exact ⟨.target ha rfl, .target hb rfl, .target hc rfl, .target hd rfl, .target he rfl, .free hv rfl, trivial⟩
    have hend := Part.endFrame_met (.inl hst) hheld (by rw [hlatched]; rfl) rfl hw rfl hv hmet
    have hhoming : (s.part.answered [a, b, c, d, e, h] v).head.state = .homing := hst
    have hsix := (Part.answered_length (p := s.part) (v := v) (words := [a, b, c, d, e, h]) hslots.symm).trans hslots
    obtain ⟨hframe', hcount, herrors⟩ := (s.part.answered [a, b, c, d, e, h] v).homed_head
    rw [hend, Part.headActs_homing hhoming (restingAt_answered hslots ha hwheels hv), hframe', hcount, herrors,
      Part.nameAndStart_recorder, Part.enterReady_recorder, Part.nameAndStart_belt, Part.enterReady_belt]
    exact ⟨rfl, rfl, rfl, rfl, rfl, fun hjobs => Part.homed_idle hjobs, fun j rest hb hq hj => Part.homed_next hsix hb hq hj,
      fun j hb hc hs => Part.homed_returns hb hc hs, fun hb => Part.homed_parked hsix hb⟩
  case preparing =>
    intro k hst hk hlatched ha hb hc hd he
    have hslots := hlength (congrArg List.length hlatched)
    have hmet : AllMet 0 f.latched [a, b, c, d, e, h] := by
      rw [hlatched]
      exact ⟨.target ha rfl, .target hb rfl, .target hc rfl, .target hd rfl, .target he rfl, .free hv rfl, trivial⟩
    have hend := Part.endFrame_met (.inr (.inl hst)) hheld (by rw [hlatched]; rfl) rfl hw rfl hv hmet
    have htargets : (s.part.answered [a, b, c, d, e, h] v).atTargets = true := by
      have hhand : (s.part.answered [a, b, c, d, e, h] v).head.inHand = some k := hk
      unfold Part.atTargets
      rw [hhand]
      exact movesDone_answered hslots ha hb hc hd he
    have hpreparing : (s.part.answered [a, b, c, d, e, h] v).head.state = .preparing := hst
    have hsix := (Part.answered_length (p := s.part) (v := v) (words := [a, b, c, d, e, h]) hslots.symm).trans hslots
    rw [hend, Part.headActs_preparing hpreparing htargets, Part.setJobState_head, Part.setJobState_recorder,
      Part.setJobState_dirty, Part.enterHead_recorder, Part.setJobState, Part.enterHead_sched, Part.enterHead_head]
    refine ⟨rfl, rfl, hk, rfl, rfl, rfl, rfl, (holdAll_held_hammer hsix .arm).trans ?_, Part.wBelt_mem_enterHead _ ?_⟩
    · rw [← hheld, Part.answered_held (p := s.part) (words := [a, b, c, d, e, h]) hslots.symm]
    · rw [hpreparing]
      decide
  case parking =>
    intro hst hlatched ha hwheels
    have hslots := hlength (congrArg List.length hlatched)
    obtain ⟨hb, hc, hd, he, -⟩ := by simpa only [List.forall_mem_cons] using hwheels
    have hmet : AllMet 0 f.latched [a, b, c, d, e, h] := by
      rw [hlatched]
      exact ⟨.target ha rfl, .target hb rfl, .target hc rfl, .target hd rfl, .target he rfl, .free hv rfl, trivial⟩
    have hend := Part.endFrame_met (.inr (.inr hst)) hheld (by rw [hlatched]; rfl) rfl hw rfl hv hmet
    have hparking : (s.part.answered [a, b, c, d, e, h] v).head.state = .parking := hst
    have hsix := (Part.answered_length (p := s.part) (v := v) (words := [a, b, c, d, e, h]) hslots.symm).trans hslots
    rw [hend, Part.headActs_parking hparking (restingAt_answered hslots ha hwheels hv), Part.enterHead_recorder,
      Part.enterHead_sched, Part.enterHead_head]
    refine ⟨rfl, rfl, (holdAll_held_none hsix).trans ?_, rfl, rfl, Part.wBelt_mem_enterHead _ ?_⟩
    · rw [← hheld, Part.answered_held (p := s.part) (words := [a, b, c, d, e, h]) hslots.symm]
    · rw [hparking]
      decide

end Sys2Proof.Machine

/-! ## HEAD_RESET -/

namespace Sys2Proof.Machine

section Homing

variable (p : Part)

/-- The head in HOMING, before the scheduler's part of the entry (R143). -/
def Part.homing : Part := p.dropInHand.clearRuns.enterHead .homing

theorem Part.homing_head : p.homing.head = { p.head with
    inHand := none, state := .homing
    slots := holdAll (p.head.slots.map (fun s => { s with run := 0 })) (wheels (some .home) (some .home) (some .safe)) } := by
  rw [Part.homing, Part.enterHead_head]
  rfl

theorem Part.homing_held (hsix : p.head.slots.length = 6) :
    p.homing.head.slots.map Slot.held = [.home, .home, .home, .home, .home, .safe] :=
  Part.enterHead_held _ rfl (by simpa using hsix)

theorem Part.homing_runs : ∀ s ∈ p.homing.head.slots, s.run = 0 := by
  rw [Part.homing_head]
  refine holdAll_run fun s hs => ?_
  obtain ⟨t, -, rfl⟩ := List.mem_map.1 hs
  rfl

theorem Part.homing_sched : p.homing.sched = p.sched := by
  rw [Part.homing, Part.enterHead_sched, Part.clearRuns_sched, Part.dropInHand_sched]

/-- The scheduler's part leaves the head as it is, and a HOMING head starts no job. -/
theorem Part.enterHoming_eq (c : HomingCause) : p.enterHoming c = (p.homing.currentAtHoming c).nameJob := by
  refine Part.nameAndStart_of_homing ?_
  show (p.homing.currentAtHoming c).head.state = .homing
  rw [Part.currentAtHoming_head, Part.homing_head]

theorem Part.enterHoming_head (c : HomingCause) : (p.enterHoming c).head = p.homing.head := by
  rw [Part.enterHoming_eq, Part.nameJob_head, Part.currentAtHoming_head]

/-- With no job current the next one is named (R117). -/
theorem Part.nameJob_at_homing {q : Part} (hh : q.head = p.homing.head) (hc : q.sched.current = none) :
    q.nameJob.sched.current = q.sched.waiting.head? ∧ q.nameJob.sched.waiting = q.sched.waiting.tail := by
  rw [Part.nameJob_sched hc (Part.headTakesJobs_iff.2 (.inl (by rw [hh, Part.homing_head])))]
  exact ⟨rfl, rfl⟩

variable {p}

theorem Part.headReset_none (hc : p.sched.current = none) :
    (p.enterHoming .headReset).sched.current = p.sched.waiting.head? ∧
      (p.enterHoming .headReset).sched.waiting = p.sched.waiting.tail ∧ (p.enterHoming .headReset).recorder = p.recorder := by
  have hstay : p.homing.currentAtHoming .headReset = p.homing := by
    unfold Part.currentAtHoming
    rw [Part.homing_sched, hc]
  obtain ⟨hcurrent, hwaiting⟩ := p.nameJob_at_homing rfl (p.homing_sched ▸ hc)
  rw [Part.homing_sched] at hcurrent hwaiting
  rw [Part.enterHoming_eq, hstay, Part.nameJob_recorder]
  exact ⟨hcurrent, hwaiting, by simp [Part.homing]⟩

theorem Part.headReset_kept {j : Job} (hc : p.sched.current = some j) (hs : j.state ≠ .striking) :
    (p.enterHoming .headReset).sched.current = some j.asQueued ∧
      (p.enterHoming .headReset).sched.waiting = p.sched.waiting ∧ (p.enterHoming .headReset).recorder = p.recorder := by
  have hqueued : p.homing.currentAtHoming .headReset = p.homing.setJobState .queued := by
    unfold Part.currentAtHoming
    rw [Part.homing_sched, hc]
    exact if_neg hs
  have hcurrent : (p.homing.setJobState .queued).sched.current = some j.asQueued := by
    rw [Part.setJobState, Part.homing_sched, hc]
    rfl
  rw [Part.enterHoming_eq, hqueued, Part.nameJob_of_current hcurrent, Part.setJobState_recorder]
  refine ⟨hcurrent, ?_, by simp [Part.homing]⟩
  rw [Part.setJobState, Part.homing_sched]

/-- A STRIKING job leaves as MISSED(HEAD_FAULT) (R118). -/
theorem Part.headReset_striking {j : Job} (hc : p.sched.current = some j) (hs : j.state = .striking) :
    (p.enterHoming .headReset).sched.current = p.sched.waiting.head? ∧
      (p.enterHoming .headReset).sched.waiting = p.sched.waiting.tail ∧
      (p.lots.closing = none → p.recorder.outgoing.length < 8 →
        (p.recorder.outgoing ++ [j.record (.missed .headFault)]) <+: (p.enterHoming .headReset).recorder.outgoing) := by
  have hleft : p.homing.currentAtHoming .headReset =
      { p.homing with sched.current := none }.finishJob j (.missed .headFault) := by
    unfold Part.currentAtHoming
    rw [Part.homing_sched, hc]
    dsimp only
    rw [if_pos hs, Part.finishCurrent_of_some (p.homing_sched ▸ hc)]
  have hsched : (p.homing.currentAtHoming .headReset).sched = { p.sched with current := none } := by
    rw [hleft, Part.finishJob_sched]
    dsimp only
    rw [Part.homing_sched]
  obtain ⟨hcurrent, hwaiting⟩ := p.nameJob_at_homing (p.homing.currentAtHoming_head .headReset) (by rw [hsched])
  rw [hsched] at hcurrent hwaiting
  rw [Part.enterHoming_eq, Part.nameJob_recorder]
  refine ⟨hcurrent, hwaiting, fun hclosing hroom => ?_⟩
  have hrecord := Part.finishJob_record (p := { p.homing with sched.current := none }) (by simpa [Part.homing] using hclosing) j
    (.missed .headFault) (by simpa [Part.homing] using hroom)
  have houtgoing : p.homing.recorder = p.recorder := by simp [Part.homing]
  rw [hleft, ← houtgoing]
  exact hrecord.1

end Homing

/-- Settles O49: the entry to HOMING, with the scheduler's part by the current job. -/
theorem headReset : Obligations.HeadReset := by
  intro tag s hsix
  have hanswer := Part.answer_setup (s.part.enterHoming .headReset) tag 5 .done
  refine ⟨{ s with part := (s.part.enterHoming .headReset).answer tag 5 .done }, rfl, rfl, ?_⟩
  dsimp only
  rw [Part.answer_head, Part.answer_sched, Part.answer_recorder, Part.answer_belt, hanswer, Part.enterHoming_head,
    Part.enterHoming_belt]
  refine ⟨?_, ?_, s.part.homing_held hsix, s.part.homing_runs, ?_, ?_, rfl, rfl, fun j hc hs => Part.headReset_kept hc hs,
    Part.headReset_none, fun j hc hs => Part.headReset_striking hc hs⟩
  all_goals rw [Part.homing_head]

end Sys2Proof.Machine

/-! ## A job placed in order -/

namespace Sys2Proof.Machine

/-! ### Where an insertion lands -/

section Split

variable {α : Type} {le : α → α → Bool} {P : α → Prop}

/-- Into an ordered list an element is inserted behind all that it does not come before. -/
theorem insertBy_split (h : Ranks le P) {x : α} {l : List α} (hx : P x) (hl : ∀ y ∈ l, P y)
    (hs : l.Pairwise (fun a b => le a b = true)) : ∃ pre post, l = pre ++ post ∧ insertBy le x l = pre ++ x :: post ∧
      (∀ y ∈ pre, le y x = true) ∧ ∀ y ∈ post, ¬ le y x = true := by
  induction l with
  | nil => exact ⟨[], [], rfl, rfl, by simp, by simp⟩
  | cons y l ih =>
    obtain ⟨hy, hl⟩ := List.forall_mem_cons.1 hl
    obtain ⟨hfirst, hs⟩ := List.pairwise_cons.1 hs
    rw [insertBy]
    by_cases hyx : le y x = true
    · obtain ⟨pre, post, rfl, hinsert, hpre, hpost⟩ := ih hl hs
      exact ⟨y :: pre, post, rfl, by rw [if_pos hyx, hinsert]; rfl, List.forall_mem_cons.2 ⟨hyx, hpre⟩, hpost⟩
    · refine ⟨[], y :: l, rfl, if_neg hyx, by simp, List.forall_mem_cons.2 ⟨hyx, fun z hz hzx => hyx ?_⟩⟩
      exact h.trans y z x hy (hl z hz) hx (hfirst z hz) hzx

end Split

/-! ### The order of the job queue (R116) -/

/-- How far ahead a job strikes and where: what the job queue is ordered by. -/
def Job.Precedes (r : Word) (a b : Job) : Prop :=
  strikeAhead r a < strikeAhead r b ∨ (strikeAhead r a = strikeAhead r b ∧ a.target ≤ b.target)

theorem jobBefore_iff (r : Word) (a b : Job) : jobBefore r a b = true ↔ a.Precedes r b := by
  simp [jobBefore, Job.Precedes]

theorem jobBefore_ranks (r : Word) : Ranks (jobBefore r) (fun _ => True) where
  total a b _ _ := by
    simp only [jobBefore_iff, Job.Precedes]
    omega
  trans a b c _ _ _ := by
    simp only [jobBefore_iff, Job.Precedes]
    omega

/-- The job that is made of a hide and its site (R114). -/
def Part.jobMade (p : Part) (info : HideInfo) (x : Site) (y : Symbols) : Job where
  info := info
  strikeRow := strikeRowOf x.row p.setup.guarded.lineOffset
  target := targetColumn x.col p.setup.guarded.sw
  symbols := y
  state := .queued

section Made

variable (p : Part) (info : HideInfo) (x : Site) (y : Symbols)

theorem Part.makeJob_jobs :
    (p.makeJob info x y).jobs.map Job.asQueued = (p.placeJob (p.jobMade info x y)).jobs.map Job.asQueued :=
  Part.nameAndStart_jobs _

theorem Part.jobMade_mem : p.jobMade info x y ∈ (p.placeJob (p.jobMade info x y)).jobs :=
  List.mem_append_right _ ((insertBy_perm _ _ _).mem_iff.2 List.mem_cons_self)

/-- The job made stands among the jobs; naming it may have changed its state. -/
theorem Part.exists_jobMade_mem : ∃ j ∈ (p.makeJob info x y).jobs, j.asQueued = p.jobMade info x y :=
  List.mem_map.1 ((p.makeJob_jobs info x y) ▸ List.mem_map_of_mem (f := Job.asQueued) (p.jobMade_mem info x y))

theorem Part.makeJob_jobs_length : (p.makeJob info x y).jobs.length = p.jobs.length + 1 := by
  have hlength := congrArg List.length (p.makeJob_jobs info x y)
  rw [List.length_map, List.length_map] at hlength
  rw [hlength]
  simp [Part.jobs, Part.placeJob, insertBy_length, Nat.add_assoc]

end Made

/-- Settles O41: the insertion splits the ordered queue, and naming a job moves it in the queue without changing it. -/
theorem jobQueueOrder : Obligations.JobQueueOrder := by
  refine ⟨?_, ?_⟩
  · intro p j key le hs
    have hle : ∀ a b : Job, jobBefore p.tracker.rowIndex a b = true ↔ le a b := fun a b => jobBefore_iff _ a b
    have hs' : p.sched.waiting.Pairwise (fun a b => jobBefore p.tracker.rowIndex a b = true) :=
      hs.imp (fun {a b} hab => (hle a b).2 hab)
    have hplaced := insertBy_pairwise (jobBefore_ranks p.tracker.rowIndex) (x := j.asQueued) trivial (fun _ _ => trivial) hs'
    obtain ⟨pre, post, hsplit, hinsert, hpre, hpost⟩ :=
      insertBy_split (jobBefore_ranks p.tracker.rowIndex) (x := j.asQueued) trivial (fun _ _ => trivial) hs'
    exact ⟨hplaced.imp (fun {a b} hab => (hle a b).1 hab), pre, post, hsplit, hinsert,
      fun a ha => (hle a j.asQueued).1 (hpre a ha), fun a ha hab => hpost a ha ((hle a j.asQueued).2 hab)⟩
  · intro p info x y
    obtain ⟨j, hj, hjm⟩ := p.exists_jobMade_mem info x y
    exact ⟨j, hj, congrArg Job.info hjm, congrArg Job.symbols hjm, congrArg Job.strikeRow hjm, congrArg Job.target hjm,
      p.makeJob_jobs_length info x y, p.makeJob_recorder info x y⟩

end Sys2Proof.Machine

/-! ## Stamp sites -/

namespace Sys2Proof.Machine

/-! ### The windows of a segment (R111) -/

section Windows

theorem columns_pairwise (lo hi : Nat) : (columns lo hi).Pairwise (· < ·) :=
  List.pairwise_map.2 (List.pairwise_lt_range.imp (fun h => Nat.add_lt_add_right h lo))

variable {heights : List Nat} {sw sl l : Nat}

theorem windowQualifies_iff (h : l + sw ≤ heights.length) :
    windowQualifies heights sw sl l = true ↔ ∀ c, l ≤ c → c < l + sw → sl ≤ heights.getD c 0 := by
  rw [windowQualifies, List.all_eq_true, List.forall_mem_iff_getElem]
  simp only [List.length_take, List.length_drop, List.getElem_take, List.getElem_drop, decide_eq_true_iff]
  constructor
  · intro hall c hc hlt
    have hle := hall (c - l) (by omega)
    rw [List.getD_eq_getElem _ _ (by omega)]
    simpa only [Nat.add_sub_cancel' hc] using hle
  · intro hall i hi
    have hle := hall (l + i) (by omega) (by omega)
    rwa [List.getD_eq_getElem _ _ (by omega)] at hle

/-- The window with left column `l` lies in the segment, clear of the outer beams, and is high enough everywhere. -/
def Guarded.Fits (g : Guarded) (heights : List Nat) (s : Seg) (l : Nat) : Prop :=
  s.start ≤ l ∧ l + g.sw ≤ s.stop + 1 ∧ 1 ≤ l ∧ l + g.sw ≤ g.beams - 1 ∧
    ∀ c, l ≤ c → c < l + g.sw → g.sl ≤ heights.getD c 0

/-- The windows of a segment that qualify. -/
def Guarded.goodWindows (g : Guarded) (heights : List Nat) (s : Seg) : List Nat :=
  (windowsOf g.beams g.sw s).filter (windowQualifies heights g.sw g.sl)

theorem Guarded.mem_goodWindows {g : Guarded} {s : Seg} (hlength : s.stop < heights.length) (hsw : 1 ≤ g.sw) (l : Nat) :
    l ∈ g.goodWindows heights s ↔ g.Fits heights s l := by
  rw [Guarded.goodWindows, windowsOf, List.mem_filter, List.mem_filter, mem_columns, Guarded.Fits]
  simp only [Bool.and_eq_true, decide_eq_true_iff]
  constructor
  · rintro ⟨⟨⟨hlo, -⟩, ⟨hhi, hone⟩, hbeams⟩, hq⟩
    exact ⟨hlo, hhi, hone, by omega, (windowQualifies_iff (by omega)).1 hq⟩
  · rintro ⟨hlo, hhi, hone, hbeams, hq⟩
    exact ⟨⟨⟨hlo, by omega⟩, ⟨hhi, hone⟩, by omega⟩, (windowQualifies_iff (by omega)).2 hq⟩

theorem Guarded.goodWindows_pairwise (g : Guarded) (heights : List Nat) (s : Seg) :
    (g.goodWindows heights s).Pairwise (· < ·) := ((columns_pairwise _ _).filter _).filter _

/-! ### The nearest of them (R112) -/

/-- `b` is nearer the centre than `k`, or as near and not right of it. -/
def Nearer (far : Nat → Nat) (b k : Nat) : Prop := far b < far k ∨ (far b = far k ∧ b ≤ k)

theorem foldl_nearest (far : Nat → Nat) (l : Nat) (ls : List Nat) (h : (l :: ls).Pairwise (· < ·)) :
    let b := ls.foldl (fun best x => if far x < far best then x else best) l
    b ∈ l :: ls ∧ ∀ k ∈ l :: ls, Nearer far b k := by
  induction ls generalizing l with
  | nil =>
    refine ⟨List.mem_singleton_self _, fun k hk => ?_⟩
    rw [List.mem_singleton.1 hk]
    exact .inr ⟨rfl, Nat.le_refl _⟩
  | cons x ls ih =>
    obtain ⟨hfirst, hrest⟩ := List.pairwise_cons.1 h
    obtain ⟨hlx, hl⟩ := List.forall_mem_cons.1 hfirst
    dsimp only at ih ⊢
    rw [List.foldl_cons]
    by_cases hfar : far x < far l
    · rw [if_pos hfar]
      obtain ⟨hmem, hnear⟩ := ih x hrest
      refine ⟨List.mem_cons_of_mem _ hmem, List.forall_mem_cons.2 ⟨?_, hnear⟩⟩
      have hx := hnear x List.mem_cons_self
      unfold Nearer at hx ⊢
      omega
    · rw [if_neg hfar]
      obtain ⟨hmem, hnear⟩ := ih l (List.pairwise_cons.2 ⟨hl, (List.pairwise_cons.1 hrest).2⟩)
      obtain ⟨hnl, hnls⟩ := List.forall_mem_cons.1 hnear
      refine ⟨?_, List.forall_mem_cons.2 ⟨hnl, List.forall_mem_cons.2 ⟨?_, hnls⟩⟩⟩
      · rcases List.mem_cons.1 hmem with hb | hb
        · rw [hb]; exact List.mem_cons_self
        · exact List.mem_cons_of_mem _ (List.mem_cons_of_mem _ hb)
      · unfold Nearer at hnl ⊢
        omega

theorem nearestWindow_eq_none_iff (sw : Nat) (s : Seg) (ls : List Nat) : nearestWindow sw s ls = none ↔ ls = [] := by
  cases ls <;> simp [nearestWindow]

theorem nearestWindow_spec {sw : Nat} {s : Seg} {ls : List Nat} (h : ls.Pairwise (· < ·)) {b : Nat}
    (hb : nearestWindow sw s ls = some b) : b ∈ ls ∧ ∀ k ∈ ls, Nearer (centreDistance sw s) b k := by
  cases ls with
  | nil => simp [nearestWindow] at hb
  | cons l ls =>
    obtain rfl := Option.some.inj hb
    exact foldl_nearest (centreDistance sw s) l ls h

/-- A segment narrower than a window holds none. -/
theorem siteIn_eq {g : Guarded} {s : Seg} (hlength : s.stop < heights.length) (hsw : 1 ≤ g.sw) :
    siteIn g heights s = nearestWindow g.sw s (g.goodWindows heights s) := by
  unfold siteIn
  split
  · next hnarrow =>
    symm
    rw [nearestWindow_eq_none_iff, List.eq_nil_iff_forall_not_mem]
    intro l hl
    obtain ⟨hlo, hhi, -⟩ := (Guarded.mem_goodWindows hlength hsw l).1 hl
    unfold Seg.width at hnarrow
    omega
  · rfl

end Windows

/-! ### New heights (R109) -/

theorem newHeights_getD (beams : Nat) (row : Beams) (heights : List Nat) {c : Nat} (hc : c < heights.length) :
    (newHeights beams row heights).getD c 0 =
      if c < beams then newHeight (row.getLsbD c) (heights.getD c 0) else heights.getD c 0 := by
  rw [List.getD_eq_getElem _ _ (by simpa [newHeights] using hc), List.getD_eq_getElem _ _ hc]
  simp [newHeights]

/-! ### The search from left to right (R112) -/

section Search

/-- What the search makes of a hide, by the first offer of its segments. -/
def Hide.sitedBy (row : Word) (offer : Option Nat) (h : Hide) : Hide :=
  match offer with
  | some l => { h with site := some { row := row, col := l } }
  | none => h

/-- The columns that the segments of an entry offer, from left to right. -/
def offersOf (g : Guarded) (heights : List Nat) (segs : List Seg) (e : Nat) : List Nat :=
  (segs.filter (fun s => decide (s.owner = .entry e))).filterMap (siteIn g heights)

theorem offersOf_cons_self {g : Guarded} {heights : List Nat} {s : Seg} {segs : List Seg} {e : Nat} (h : s.owner = .entry e) :
    offersOf g heights (s :: segs) e = (siteIn g heights s).toList ++ offersOf g heights segs e := by
  rw [offersOf, List.filter_cons_of_pos (by simpa using h), List.filterMap_cons]
  cases siteIn g heights s <;> rfl

theorem offersOf_cons_of_ne {g : Guarded} {heights : List Nat} {s : Seg} {segs : List Seg} {e : Nat} (h : s.owner ≠ .entry e) :
    offersOf g heights (s :: segs) e = offersOf g heights segs e := by
  rw [offersOf, List.filter_cons_of_neg (by simpa using h)]
  rfl

variable (p : Part) (heights : List Nat) (segs : List Seg) (found : List Nat)

theorem Part.searchSites_frame : ∃ t, t.length = p.tracker.table.length ∧
    p.searchSites heights segs found = { p with tracker.table := t } := by
  induction segs generalizing p found with
  | nil => exact ⟨p.tracker.table, rfl, rfl⟩
  | cons s segs ih =>
    unfold Part.searchSites
    split
    · exact ih p found
    · next i _ =>
      split
      · exact ih p found
      split
      · next l _ =>
        obtain ⟨t, hlength, heq⟩ := ih
          (p.modifyHide (.entry i) fun h => { h with site := some { row := p.tracker.rowIndex, col := l } }) (i :: found)
        exact ⟨t, hlength.trans List.length_set, heq⟩
      · exact ih p found

/-- An entry that has not found a site in this row takes the first one its segments offer; another is left. -/
theorem Part.searchSites_hideOf (e : Nat) : (p.searchSites heights segs found).hideOf (.entry e) =
    (p.hideOf (.entry e)).map (Hide.sitedBy p.tracker.rowIndex
      (if e ∈ found then none else (offersOf p.setup.guarded heights segs e).head?)) := by
  induction segs generalizing p found with
  | nil => cases h : p.hideOf (.entry e) <;> simp [Part.searchSites, offersOf, Hide.sitedBy, h]
  | cons s segs ih =>
    unfold Part.searchSites
    split
    · next howner => rw [ih, offersOf_cons_of_ne (by rw [howner]; simp)]
    · next i howner =>
      by_cases hi : i = e
      · subst hi
        rw [offersOf_cons_self howner]
        by_cases hf : i ∈ found
        · rw [if_pos (List.contains_iff_mem.2 hf), ih, if_pos hf, if_pos hf]
        rw [if_neg (mt List.contains_iff_mem.1 hf), if_neg hf]
        cases hsite : siteIn p.setup.guarded heights s with
        | none => rw [ih, if_neg hf]; rfl
        | some l =>
          rw [ih, if_pos List.mem_cons_self, Part.modifyHide_hideOf, if_pos rfl]
          cases p.hideOf (.entry i) <;> rfl
      · have hne : Owner.entry e ≠ Owner.entry i := fun h => hi (Owner.entry.inj h).symm
        rw [offersOf_cons_of_ne (by rw [howner]; exact hne.symm)]
        split
        · exact ih p found
        split
        · rw [ih, Part.modifyHide_hideOf, if_neg hne]
          simp only [List.mem_cons, Ne.symm hi, false_or]
          rfl
        · exact ih p found

end Search

/-- Settles O40: the search by induction over the segments, the windows of one segment by what qualifies and what is nearest. -/
theorem siteSearch : Obligations.SiteSearch := by
  refine ⟨?_, ?_, ?_⟩
  · intro p r q
    obtain ⟨t, hlength, hframe⟩ := p.searchSites_frame q.sched.heights p.tracker.cur []
    have hq : q = { p with tracker.table := t, sched.heights := q.sched.heights } :=
      congrArg (fun x : Part => { x with sched.heights := q.sched.heights }) hframe
    have htable : q.tracker.table = t := congrArg (fun x : Part => x.tracker.table) hq
    refine ⟨by rw [htable]; exact hq, by rw [htable]; exact hlength, ?_⟩
    intro e offers
    have hhide : q.hideOf (.entry e) = (p.hideOf (.entry e)).map (Hide.sitedBy p.tracker.rowIndex offers.head?) :=
      p.searchSites_hideOf q.sched.heights p.tracker.cur [] e
    refine ⟨fun hnone => by rw [hhide, hnone]; rfl, fun h hsome => ⟨fun hnil => ?_, fun l rest hcons => ?_⟩⟩
    · rw [hhide, hsome, hnil]; rfl
    · rw [hhide, hsome, hcons]; rfl
  · intro p r c hlength hc
    exact newHeights_getD _ _ _ (hlength ▸ hc)
  · intro g heights s hlength hstop hsw fits far
    have hmem : ∀ l, l ∈ g.goodWindows heights s ↔ fits l := Guarded.mem_goodWindows (hlength ▸ hstop) hsw
    rw [siteIn_eq (hlength ▸ hstop) hsw]
    refine ⟨?_, fun l hl => ?_⟩
    · simp only [nearestWindow_eq_none_iff, List.eq_nil_iff_forall_not_mem, hmem]
    · obtain ⟨hgood, hnear⟩ := nearestWindow_spec (g.goodWindows_pairwise heights s) hl
      exact ⟨(hmem l).1 hgood, fun k hk => hnear k ((hmem k).2 hk)⟩

end Sys2Proof.Machine

/-! ## The expiries of the belt's timers -/

namespace Sys2Proof.Machine

section Expiries

variable (p : Part)

/-! ### Halt-timer expiry (R156) -/

/-- The belt after the halt timer's expiry. -/
def Belt.halted : Belt := { present := .halted, last := some .running, halt := none, park := some 0 }

/-- The part whose halt timer has expired in RUNNING. -/
def Part.beltHalted : Part := ({ p with belt := Belt.halted } : Part).mark wBelt

variable {p}

theorem Part.haltExpiry_of_running (h : p.belt.present = .running) : p.haltExpiry = p.beltHalted := by
  unfold Part.haltExpiry Part.moveBelt
  rw [h]
  rfl

theorem Part.haltExpiry_of_not_running (h : p.belt.present ≠ .running) : p.haltExpiry = p := by
  unfold Part.haltExpiry
  split
  · next hrun => exact absurd hrun h
  · rfl
  · rfl

theorem Part.takeHaltExpiry_of_elapsed {e : Nat} (h : p.belt.halt = some e) (he : 0 < e) : p.takeHaltExpiry = p.haltExpiry :=
  if_pos (by simp [h, he])

theorem Part.takeHaltExpiry_of_stopped (h : p.belt.halt = none) : p.takeHaltExpiry = p := if_neg (by simp [h])

theorem Part.takeHaltExpiry_of_not_running (h : p.belt.present ≠ .running) : p.takeHaltExpiry = p := by
  unfold Part.takeHaltExpiry
  split
  · exact Part.haltExpiry_of_not_running h
  · rfl

/-- A restart signal that comes after the expiry finds HALTED: the belt runs again and the head is left. -/
theorem Part.beltHalted_restartSignal (p : Part) :
    p.beltHalted.restartSignal.belt = { present := .running, last := some .halted, halt := some 0, park := none } ∧
    p.beltHalted.restartSignal.head = p.head ∧ p.beltHalted.restartSignal.sched = p.sched := ⟨rfl, rfl, rfl⟩

/-! ### The park order and park-timer expiry (R148, R157) -/

/-- The head stands where a park order moves it. -/
def HeadLink.TakesPark (h : HeadLink) : Prop := h.state = .ready ∨ h.state = .preparing ∨ h.state = .armed

theorem Part.parkOrder_of_takesPark (h : p.head.TakesPark) : p.parkOrder = p.enterParking := by
  unfold Part.parkOrder
  rcases h with h | h | h <;> rw [h]

theorem Part.parkOrder_of_not_takesPark (h : ¬ p.head.TakesPark) : p.parkOrder = p := by
  unfold Part.parkOrder
  split
  · next hs => exact absurd (.inl hs) h
  · next hs => exact absurd (.inr (.inl hs)) h
  · next hs => exact absurd (.inr (.inr hs)) h
  all_goals rfl

theorem Part.dirty_subset_parkOrder : p.dirty ⊆ p.parkOrder.dirty := by
  rcases p.parkOrder_cases with h | h
  · rw [h]; exact p.keeps_enterParking.dirty
  · rw [h]; exact List.Subset.refl _

/-- The belt after the park timer's expiry. -/
def Belt.parked (b : Belt) : Belt := { b with present := .parked, last := some .halted, park := none }

/-- The part whose belt has gone from HALTED to PARKED, before the park order. -/
def Part.beltParked (p : Part) : Part := ({ p with belt := p.belt.parked } : Part).mark wBelt

theorem Part.parkExpiry_of_halted (h : p.belt.present = .halted) : p.parkExpiry = p.beltParked.parkOrder := by
  unfold Part.parkExpiry Part.moveBelt
  rw [h]
  rfl

theorem Part.parkExpiry_of_not_halted (h : p.belt.present ≠ .halted) : p.parkExpiry = p := by
  unfold Part.parkExpiry
  split
  · next hhalt => exact absurd hhalt h
  · rfl
  · rfl

theorem Part.parkExpiry_belt (h : p.belt.present = .halted) : p.parkExpiry.belt = p.belt.parked := by
  rw [Part.parkExpiry_of_halted h, Part.parkOrder_belt]
  rfl

theorem Part.wBelt_mem_parkExpiry (h : p.belt.present = .halted) : wBelt ∈ p.parkExpiry.dirty := by
  rw [Part.parkExpiry_of_halted h]
  exact Part.dirty_subset_parkOrder ((mem_insertRising _ _ _).2 (.inl rfl))

theorem Part.parkExpiry_recorder (p : Part) : p.parkExpiry.recorder = p.recorder := by
  unfold Part.parkExpiry
  split <;> simp

theorem Part.parkExpiry_of_takesPark (h : p.belt.present = .halted) (hp : p.head.TakesPark) :
    p.parkExpiry = p.beltParked.enterParking := by
  rw [Part.parkExpiry_of_halted h, Part.parkOrder_of_takesPark (p := p.beltParked) hp]

theorem Part.parkExpiry_of_not_takesPark (h : p.belt.present = .halted) (hp : ¬ p.head.TakesPark) :
    p.parkExpiry = p.beltParked := by
  rw [Part.parkExpiry_of_halted h, Part.parkOrder_of_not_takesPark (p := p.beltParked) hp]

theorem Part.parkNow_of_halted (tag : Half) (h : p.belt.present = .halted) : p.parkNow tag = p.parkExpiry.answer tag 6 .done := by
  unfold Part.parkNow
  rw [h]

theorem Part.parkNow_of_not_halted (tag : Half) (h : p.belt.present ≠ .halted) : p.parkNow tag = p.answer tag 6 .state := by
  unfold Part.parkNow
  split
  · next hhalt => exact absurd hhalt h
  · rfl
  · rfl

end Expiries

/-! ### COMMIT and the running timers (R155) -/

/-- A change that leaves the belt and the head. -/
structure Part.SameBelt (p q : Part) : Prop where
  belt : q.belt = p.belt
  head : q.head = p.head

section SameBelt

theorem Part.SameBelt.refl (p : Part) : p.SameBelt p := ⟨rfl, rfl⟩

theorem Part.SameBelt.trans {p q t : Part} (h : p.SameBelt q) (h' : q.SameBelt t) : p.SameBelt t :=
  ⟨h'.belt.trans h.belt, h'.head.trans h.head⟩

variable (p : Part)

theorem Part.dropRecords_sameBelt (rs : List Record) : p.SameBelt (rs.foldl Part.dropRecord p) := by
  induction rs generalizing p with
  | nil => exact .refl p
  | cons r rs ih => exact Part.SameBelt.trans ⟨p.dropRecord_belt r, p.dropRecord_head r⟩ (ih _)

theorem Part.abandonRecord_sameBelt : p.SameBelt p.abandonRecord := by
  unfold Part.abandonRecord
  split
  · exact ⟨by simp, by simp⟩
  · exact .refl p

theorem Part.ringAfterCommit_sameBelt (old : Unguarded) : p.SameBelt (p.ringAfterCommit old) := by
  have hzero : p.SameBelt p.abandonRecord.zeroRing := p.abandonRecord_sameBelt.trans ⟨rfl, rfl⟩
  unfold Part.ringAfterCommit Part.ringChange
  dsimp only
  split
  · split
    · exact hzero.trans (Part.SameBelt.trans (q := { p.abandonRecord.zeroRing with recorder.outgoing := [] }) ⟨rfl, rfl⟩
        (Part.dropRecords_sameBelt _ _))
    · exact hzero
  · exact .refl p

theorem Part.commitGuarded_sameBelt (tag : Half) (g : Guarded) : p.SameBelt (p.commitGuarded tag g).2 := by
  unfold Part.commitGuarded
  split
  · exact ⟨by simp, by simp⟩
  · split
    · exact ⟨by simp, by simp⟩
    · exact ⟨by simp, by simp⟩

theorem Part.answer_sameBelt (tag : Half) (c : BitVec 4) (r : ResultCode) : p.SameBelt (p.answer tag c r) :=
  ⟨by simp, by simp⟩

end SameBelt

/-- A timer whose length a COMMIT changes and which has reached the new length. -/
def Overtaken (timer : Option Nat) (old new : Nat) : Prop := new ≠ old ∧ timerDue timer new = true

theorem timerDue_some (e length : Nat) : timerDue (some e) length = true ↔ length ≤ e := by simp [timerDue]

theorem not_overtaken {timer : Option Nat} {old new : Nat} (h : new = old ∨ ∀ e, timer = some e → e < new) :
    ¬ Overtaken timer old new := by
  rintro ⟨hne, hdue⟩
  cases timer with
  | none => exact absurd hdue (by simp [timerDue])
  | some e => exact absurd (h.resolve_left hne e rfl) (Nat.not_lt.2 ((timerDue_some e new).1 hdue))

section Timers

variable (p : Part) (oldHalt oldPark : Nat)

theorem Part.timersAfterCommit_halts (h : p.belt.present = .running) (hhalt : Overtaken p.belt.halt oldHalt p.haltLength)
    (hpark : 0 < p.parkLength) : p.timersAfterCommit oldHalt oldPark = p.beltHalted := by
  have hnot : ¬ Overtaken p.beltHalted.belt.park oldPark p.beltHalted.parkLength :=
    not_overtaken (.inr (fun e he => Option.some.inj he ▸ hpark))
  unfold Part.timersAfterCommit
  unfold Overtaken at hhalt
  rw [if_pos hhalt, Part.haltExpiry_of_running h]
  exact if_neg hnot

/-- In HALTED only the park timer can expire. -/
theorem Part.timersAfterCommit_parks (h : p.belt.present = .halted) (hpark : Overtaken p.belt.park oldPark p.parkLength) :
    p.timersAfterCommit oldHalt oldPark = p.parkExpiry := by
  unfold Part.timersAfterCommit
  rw [Part.haltExpiry_of_not_running (by rw [h]; decide), ite_self]
  exact if_pos hpark

theorem Part.timersAfterCommit_leaves (hhalt : ¬ Overtaken p.belt.halt oldHalt p.haltLength)
    (hpark : ¬ Overtaken p.belt.park oldPark p.parkLength) : p.timersAfterCommit oldHalt oldPark = p := by
  unfold Part.timersAfterCommit
  unfold Overtaken at hhalt
  rw [if_neg hhalt]
  exact if_neg hpark

end Timers

section Commit

variable (p : Part)

/-- The part of a valid COMMIT just before the new lengths meet the timers. -/
def Part.beforeTimers : Part :=
  (p.setUnguarded (Unguarded.ofStaged p.setup.staged)).ringAfterCommit p.setup.unguarded

theorem Part.withUnguarded_eq : p.withUnguarded = p.beforeTimers.timersAfterCommit p.haltLength p.parkLength := rfl

theorem Part.beforeTimers_sameBelt : p.SameBelt p.beforeTimers :=
  Part.SameBelt.trans (q := p.setUnguarded (Unguarded.ofStaged p.setup.staged)) ⟨rfl, rfl⟩ (Part.ringAfterCommit_sameBelt _ _)

theorem Part.beforeTimers_setup : p.beforeTimers.setup = { p.setup with unguarded := Unguarded.ofStaged p.setup.staged } :=
  (Part.ringAfterCommit_sameRows _ _).setup

theorem Part.beforeTimers_haltLength : p.beforeTimers.haltLength = 1000 * stagedField p.setup.staged 45 0 13 := by
  rw [Part.haltLength, Part.beforeTimers_setup]
  rfl

theorem Part.beforeTimers_parkLength : p.beforeTimers.parkLength = 1000000 * stagedField p.setup.staged 46 0 12 := by
  rw [Part.parkLength, Part.beforeTimers_setup]
  rfl

/-- A valid COMMIT sets no park time of 0 (R178). -/
theorem parkTime_pos {ws : List Word} (h : firstOutOfRange ws = none) : 0 < stagedField ws 46 0 12 := by
  by_contra hzero
  have hlow : stagedField ws 46 0 12 < 10 := by omega
  exact (firstOutOfRange_eq_none_iff ws).1 h 46 (by unfold stagedBad; simp [hlow])

/-- What follows the timers in a COMMIT leaves the belt and the head as the timers left them. -/
theorem exec_commit_sameBelt (tag : Half) (s : State) (h : firstOutOfRange s.part.setup.staged = none) :
    ∃ t, exec (.commit tag) s = .next t ∧ s.part.withUnguarded.SameBelt t.part :=
  ⟨_, exec_commit_valid tag s h, (Part.commitGuarded_sameBelt _ _ _).trans (Part.answer_sameBelt _ _ _ _)⟩

end Commit

section CommitBelt

variable (tag : Half) (s : State)

/-- The timers a COMMIT finds running, against the lengths it brings. -/
theorem commit_expiries (h : firstOutOfRange s.part.setup.staged = none) :
    let halt := 1000 * stagedField s.part.setup.staged 45 0 13
    let park := 1000000 * stagedField s.part.setup.staged 46 0 12
    ∃ t, exec (.commit tag) s = .next t ∧
      (s.part.belt.present = .running → Overtaken s.part.belt.halt s.part.haltLength halt → t.part.belt = Belt.halted) ∧
      (s.part.belt.present = .halted → Overtaken s.part.belt.park s.part.parkLength park →
        t.part.belt = s.part.belt.parked ∧ (s.part.head.TakesPark → t.part.head.state = .parking)) ∧
      (¬ Overtaken s.part.belt.halt s.part.haltLength halt → ¬ Overtaken s.part.belt.park s.part.parkLength park →
        t.part.belt = s.part.belt) := by
  intro halt park
  obtain ⟨t, hexec, hbelt, hhead⟩ := exec_commit_sameBelt tag s h
  obtain ⟨hbelt₀, hhead₀⟩ := s.part.beforeTimers_sameBelt
  have hpos : 0 < park := Nat.mul_pos (by decide) (parkTime_pos h)
  rw [s.part.withUnguarded_eq] at hbelt hhead
  rw [← hbelt₀, ← hhead₀, show halt = _ from s.part.beforeTimers_haltLength.symm,
    show park = _ from s.part.beforeTimers_parkLength.symm]
  rw [show park = _ from s.part.beforeTimers_parkLength.symm] at hpos
  generalize s.part.beforeTimers = p at *
  refine ⟨t, hexec, fun hrun hhalt => ?_, fun hhalted hpark => ?_, fun hhalt hpark => ?_⟩
  · rw [hbelt, p.timersAfterCommit_halts _ _ hrun hhalt hpos]
    rfl
  · rw [hbelt, hhead, p.timersAfterCommit_parks _ _ hhalted hpark]
    refine ⟨Part.parkExpiry_belt hhalted, fun hp => ?_⟩
    rw [Part.parkExpiry_of_takesPark hhalted hp]
    exact (Part.enterParking_state _).1
  · rw [hbelt, p.timersAfterCommit_leaves _ _ hhalt hpark]

end CommitBelt

/-! ### The expiries whole -/

/-- What the park timer's expiry in HALTED does: the belt, its status word, the head, and a current job that the park order
returns to waiting. -/
theorem Part.parkExpiry_effects {p : Part} (h : p.belt.present = .halted) :
    p.parkExpiry.belt = p.belt.parked ∧ wBelt ∈ p.parkExpiry.dirty ∧
    (p.head.TakesPark →
      p.parkExpiry.head.state = .parking ∧ p.parkExpiry.head.inHand = none ∧ p.parkExpiry.recorder = p.recorder ∧
      (p.head.slots.length = 6 →
        p.parkExpiry.head.slots.map Slot.held = [.park, .set 10, .set 10, .set 10, .set 10, .safe]) ∧
      (∀ j, p.sched.current = some j → j.state ≠ .striking →
        p.parkExpiry.sched.current = none ∧ p.parkExpiry.sched.waiting = (p.placeJob j).sched.waiting) ∧
      ((p.sched.current = none ∨ ∃ j, p.sched.current = some j ∧ j.state = .striking) → p.parkExpiry.sched = p.sched)) ∧
    (¬ p.head.TakesPark → p.parkExpiry.head = p.head ∧ p.parkExpiry.sched = p.sched) := by
  refine ⟨Part.parkExpiry_belt h, Part.wBelt_mem_parkExpiry h, fun hp => ?_, fun hp => ?_⟩
  · have hrecorder := p.parkExpiry_recorder
    rw [Part.parkExpiry_of_takesPark h hp] at hrecorder ⊢
    refine ⟨p.beltParked.enterParking_state.1, p.beltParked.enterParking_state.2, hrecorder,
      p.beltParked.enterParking_held, fun j hj hns => p.beltParked.enterParking_returns hj hns, fun hcur => ?_⟩
    refine p.beltParked.enterParking_leaves (fun j hj => ?_)
    obtain hnone | ⟨k, hk, hks⟩ := hcur
    · exact absurd (hj.symm.trans hnone) (by simp)
    · obtain rfl : j = k := Option.some.inj (hj.symm.trans hk)
      exact hks
  · rw [Part.parkExpiry_of_not_takesPark h hp]
    exact ⟨rfl, rfl⟩

theorem exec_haltTimerExpiry_halts {s : State} {e : Nat} (hrun : s.part.belt.present = .running)
    (he : s.part.belt.halt = some e) (hpos : 0 < e) :
    exec .haltTimerExpiry s = .next { s with part := s.part.beltHalted } := by
  rw [← Part.haltExpiry_of_running hrun, ← Part.takeHaltExpiry_of_elapsed he hpos]
  rfl

theorem exec_parkNow_of_eq {tag : Half} {s : State} {q : Part} (h : s.part.parkNow tag = q) :
    exec (.parkNow tag) s = .next { s with part := q } := by
  rw [← h]
  rfl

/-- Settles O50: what a COMMIT's new lengths overtake, and each expiry in the state that takes it and in the others. -/
theorem beltExpiries : Obligations.BeltExpiries := by
  refine ⟨fun tag s h => ?commit, fun tag s => ⟨fun e hrun he hpos => ?halts, fun hidle => ?halt_idle,
    ?halt_started, fun e hrun he hpos => ?halt_then_restart, fun hhalted => ?parks, fun hnot => ?park_idle⟩⟩
  case commit =>
    obtain ⟨t, hexec, hhalts, hparks, hleaves⟩ := commit_expiries tag s h
    refine ⟨t, hexec, fun e hrun he hne hle => ?_, fun e hhalted he hne hle => ?_, fun hhalt hpark => ?_⟩
    · exact hhalts hrun ⟨hne, by rw [he]; exact (timerDue_some _ _).2 hle⟩
    · exact hparks hhalted ⟨hne, by rw [he]; exact (timerDue_some _ _).2 hle⟩
    · exact hleaves (not_overtaken hhalt) (not_overtaken hpark)
  case halts =>
    exact exec_haltTimerExpiry_halts hrun he hpos
  case halt_idle =>
    have hleft : s.part.takeHaltExpiry = s.part := by
      obtain hne | hstarted | hstopped := hidle
      · exact Part.takeHaltExpiry_of_not_running hne
      · exact Part.takeHaltExpiry_started hstarted
      · exact Part.takeHaltExpiry_of_stopped hstopped
    exact congrArg Host.Outcome.next (State.onPart_of_eq hleft)
  case halt_started =>
    exact congrArg Host.Outcome.next (State.onPart_of_eq (Part.takeHaltExpiry_started s.part.restartSignal_running.2))
  case halt_then_restart =>
    exact ⟨_, exec_haltTimerExpiry_halts hrun he hpos, s.part.beltHalted_restartSignal⟩
  case parks =>
    obtain ⟨hbelt, hdirty, htakes, hleaves⟩ := Part.parkExpiry_effects hhalted
    refine ⟨{ s with part := s.part.parkExpiry }, rfl, rfl, hbelt, hdirty, htakes,
      fun hready hpreparing harmed => hleaves (by simp [HeadLink.TakesPark, hready, hpreparing, harmed]), ?_⟩
    exact exec_parkNow_of_eq (Part.parkNow_of_halted tag hhalted)
  case park_idle =>
    exact ⟨congrArg Host.Outcome.next (State.onPart_of_eq (Part.parkExpiry_of_not_halted hnot)),
      exec_parkNow_of_eq (Part.parkNow_of_not_halted tag hnot)⟩

end Sys2Proof.Machine

/-! ## A frame boundary, and the command words -/

namespace Sys2Proof.Machine

/-! ### Command words (11.6) -/

/-- A command word is its code before its operand. -/
theorem SlotCmd.word_operand (n : Nat) :
    (0x1000 : BitVec 16) ||| BitVec.ofNat 16 (n % 4096) = (1 : BitVec 4) ++ BitVec.ofNat 12 n := by
  have hlow : n % 4096 % 65536 = n % 4096 := Nat.mod_eq_of_lt (by omega)
  have hword : ((0x1000 : BitVec 16) ||| BitVec.ofNat 16 (n % 4096)).toNat = 0x1000 ||| n % 4096 := by simp [hlow]
  exact BitVec.eq_of_toNat_eq (hword.trans (BitVec.toNat_append (1 : BitVec 4) (BitVec.ofNat 12 n)).symm)

/-! ### The boundary (R132, R134, R135) -/

section Boundary

variable (p : Part)

/-- The frame period and the gate mode as a boundary reads them (R132). -/
def Part.boundaryRead : Part :=
  { p with head.framePeriod := p.setup.unguarded.framePeriod, head.gated := decide (p.belt.present = .parked) }

/-- The held words go out as a frame and are the ones last sent (R134). -/
def Part.frameSent : Part :=
  { p with
    head.frame := some (frameOf p.head.slots)
    head.slots := p.head.slots.map (fun s => { s with lastSent := s.held }) }

variable {p}

theorem Slot.changed_iff (s : Slot) : s.changed = true ↔ s.held ≠ s.lastSent := decide_eq_true_iff

/-- Frames are continuous outside PARKED, and in PARKED a changed word sends one (R135). -/
theorem Part.boundary_sends (h : p.belt.present ≠ .parked ∨ ∃ x ∈ p.head.slots, x.held ≠ x.lastSent) :
    p.boundary = p.boundaryRead.frameSent := by
  refine if_neg ?_
  rw [Bool.and_eq_true, not_and_or]
  refine h.imp (fun hbelt => by simpa using hbelt) fun ⟨x, hx, hne⟩ => ?_
  have hany : p.head.slots.any Slot.changed = true := List.any_eq_true.2 ⟨x, hx, x.changed_iff.2 hne⟩
  simpa using hany

theorem Part.boundary_gated (hbelt : p.belt.present = .parked) (h : ∀ x ∈ p.head.slots, x.held = x.lastSent) :
    p.boundary = p.boundaryRead := by
  refine if_pos ?_
  have hany : p.head.slots.any Slot.changed = false :=
    List.any_eq_false.2 fun x hx hc => x.changed_iff.1 hc (h x hx)
  simp [hbelt, hany]

end Boundary

/-- FRAME_BOUNDARY with no frame in progress, on the part. -/
theorem exec_frameBoundary_eq {s : State} {q : Part} (hframe : s.part.head.frame = none) (h : s.part.boundary = q) :
    exec .frameBoundary s = .next { s with part := q } := by
  have hidle : s.part.boundaryIfIdle = q := (if_neg (by simp [hframe])).trans h
  rw [← hidle]
  rfl

/-- Settles O43: the words by their code and operand, and a boundary by whether it sends a frame. -/
theorem frameBoundary : Obligations.FrameBoundary := by
  refine ⟨⟨rfl, fun n _ => SlotCmd.word_operand n, fun n _ => SlotCmd.word_operand n, rfl, rfl, rfl, rfl, rfl⟩,
    fun s hframe => ⟨fun hsends => ?_, fun hparked hsame => ?_⟩⟩
  · exact exec_frameBoundary_eq hframe (Part.boundary_sends (hsends.imp_left of_decide_eq_false))
  · have hbelt : s.part.belt.present = .parked := of_decide_eq_true hparked
    rw [exec_frameBoundary_eq hframe (Part.boundary_gated hbelt hsame), Part.boundaryRead, hbelt]
    rfl

end Sys2Proof.Machine

/-! ## The judging of one status word -/

namespace Sys2Proof.Machine

/-! ### What a word is judged to be (R138) -/

section Words

theorem parityGood_iff (w : BitVec 16) : parityGood w = true ↔ onesOf w % 2 = 1 := beq_iff_eq

/-- The ABSENT word has even parity. -/
theorem ne_absent_of_parityGood {w : BitVec 16} (h : parityGood w = true) : w ≠ 0xFFFF := by
  rintro rfl
  exact absurd h (by decide)

variable {st : HeadState} (hst : st ≠ .faulted) (base : Option (BitVec 12)) (i : Nat) (s : Slot) (latched : SlotCmd)
include hst

theorem judgeSlot_absent : judgeSlot i st base s latched 0xFFFF =
    { slot := { s with run := 0 }, fault := some .absent, status := none } := by
  unfold judgeSlot
  simp [hst]

variable {s} {w : BitVec 16}

/-- A parity error that is not the third in a row is counted only. -/
theorem judgeSlot_parityError (hw : w ≠ 0xFFFF) (hp : parityGood w = false) (hr : s.run < 2) :
    judgeSlot i st base s latched w = { slot := { s with run := s.run + 1 }, fault := none, status := none } := by
  unfold judgeSlot
  rw [if_neg hw, if_pos (by simp [hp])]
  simp [hst, hr]

/-- The third parity error in a row is a fault condition and ends the run. -/
theorem judgeSlot_thirdParityError (hw : w ≠ 0xFFFF) (hp : parityGood w = false) (hr : 2 ≤ s.run) :
    judgeSlot i st base s latched w = { slot := { s with run := 0 }, fault := some .parity, status := none } := by
  unfold judgeSlot
  rw [if_neg hw, if_pos (by simp [hp])]
  simp [hst, hr]

/-- A word that passes parity is the slot's latest status if it answers the held command. -/
theorem judgeSlot_good (hp : parityGood w = true) : judgeSlot i st base s latched w =
    { slot := if latched = s.held then s.answered w else { s with run := 0 }
      fault := statusFault i st base s.held latched (decodeStatus w), status := some (decodeStatus w) } := by
  unfold judgeSlot
  rw [if_neg (ne_absent_of_parityGood hp), if_neg (by simp [hp])]
  by_cases h : latched = s.held <;> simp [hst, h, Slot.answered]

omit hst

theorem judgeSlot_lastSent : (judgeSlot i st base s latched w).slot.lastSent = s.lastSent := by
  unfold judgeSlot
  dsimp only
  (repeat' split) <;> rfl

/-- Only a word that passes parity is decoded. -/
theorem judgeSlot_decodes {x : SlotStatus} (h : (judgeSlot i st base s latched w).status = some x) :
    parityGood w = true ∧ x = decodeStatus w := by
  by_cases hw : w = 0xFFFF
  · simp [judgeSlot, hw] at h
  · cases hp : parityGood w with
    | true =>
      unfold judgeSlot at h
      rw [if_neg hw, if_neg (by simp [hp])] at h
      exact ⟨rfl, (Option.some.inj h).symm⟩
    | false =>
      unfold judgeSlot at h
      rw [if_neg hw, if_pos (by simp [hp])] at h
      (repeat' split at h) <;> cases h

end Words

/-! ### An IDLE value (R140) -/

section IdleValue

/-- The module was sent the held command, and reports IDLE away from its target (log entry 18). -/
def Mismatched (i : Nat) (held latched : SlotCmd) (v : BitVec 12) : Prop :=
  latched = held ∧ ∃ t, held.targetValue i = some t ∧ t ≠ v

/-- In STRIKING the hammer reports neither the base nor the base plus one (log entry 30). -/
def Miscounted (i : Nat) (st : HeadState) (base : Option (BitVec 12)) (v : BitVec 12) : Prop :=
  i = 5 ∧ st = .striking ∧ ∀ n, base = some n → v ≠ n ∧ v ≠ n + 1

theorem countBad_iff (base : Option (BitVec 12)) (v : BitVec 12) :
    countBad base v = true ↔ ∀ n, base = some n → v ≠ n ∧ v ≠ n + 1 := by
  cases base <;> simp [countBad]

variable {i : Nat} {st : HeadState} {base : Option (BitVec 12)} {held latched : SlotCmd} {v : BitVec 12}

theorem mismatched_iff : Mismatched i held latched v ↔
    latched = held ∧ (held.targetValue i).any (fun t => decide (t ≠ v)) = true := by
  simp [Mismatched, Option.any_eq_true]

theorem miscounted_iff : Miscounted i st base v ↔ i = 5 ∧ st = .striking ∧ countBad base v = true := by
  rw [Miscounted, countBad_iff]

theorem statusFault_of_mismatched (h : Mismatched i held latched v) :
    statusFault i st base held latched (.idle v) = some .mismatch := if_pos (mismatched_iff.1 h)

theorem statusFault_of_miscounted (hm : ¬ Mismatched i held latched v) (hc : Miscounted i st base v) :
    statusFault i st base held latched (.idle v) = some .count :=
  (if_neg (mismatched_iff.not.1 hm)).trans (if_pos (miscounted_iff.1 hc))

theorem statusFault_of_neither (hm : ¬ Mismatched i held latched v) (hc : ¬ Miscounted i st base v) :
    statusFault i st base held latched (.idle v) = none :=
  (if_neg (mismatched_iff.not.1 hm)).trans (if_neg (miscounted_iff.not.1 hc))

end IdleValue

/-- Settles O44: the word by its parity, and a good one by its kind. -/
theorem judgingAStatusWord : Obligations.JudgingAStatusWord := by
  intro i st base s latched w hst j ones
  have hgood (hp : ones % 2 = 1) : j = _ := judgeSlot_good hst base i latched ((parityGood_iff w).2 hp)
  have hbad (hp : ones % 2 = 0) : parityGood w = false :=
    Bool.eq_false_iff.2 fun h => absurd (hp.symm.trans ((parityGood_iff w).1 h)) (by decide)
  refine ⟨judgeSlot_held st base i s latched w, judgeSlot_lastSent base i latched, ?absent, fun hw hp hr => ?counted,
    fun hw hp hr => ?third, fun hp => ?good, fun c hp hc => ?module, fun hp hb => ?busy, fun v hp hv => ?idle, rfl⟩
  case absent =>
    rintro rfl
    have habsent : j = _ := judgeSlot_absent hst base i s latched
    rw [habsent]
    exact ⟨rfl, rfl, rfl⟩
  case counted =>
    have hcounted : j = _ := judgeSlot_parityError hst base i latched hw (hbad hp) hr
    rw [hcounted]
    exact ⟨rfl, rfl⟩
  case third =>
    have hthird : j = _ := judgeSlot_thirdParityError hst base i latched hw (hbad hp) hr.ge
    rw [hthird]
    exact ⟨rfl, rfl⟩
  case good =>
    rw [hgood hp]
    refine ⟨rfl, ?_, fun h => ?_, fun h => ?_⟩
    · dsimp only
      split <;> rfl
    · dsimp only
      rw [if_pos h]
      rfl
    · dsimp only
      rw [if_neg h]
  case module =>
    rw [hgood hp, hc]
    rfl
  case busy =>
    rw [hgood hp, hb]
    rfl
  case idle =>
    intro target mismatch count
    have htarget : target = s.held.targetValue i := by
      cases hheld : s.held <;> simp only [target, hheld] <;> rfl
    have hmismatch : mismatch ↔ Mismatched i s.held latched v := by
      rw [Mismatched, ← htarget]
    rw [hgood hp, hv, hmismatch]
    exact ⟨statusFault_of_mismatched, statusFault_of_miscounted, statusFault_of_neither⟩

end Sys2Proof.Machine

/-! ## A restart signal -/

namespace Sys2Proof.Machine

section Wake

variable (p : Part)

/-! ### The wake order (R149) -/

/-- The head stands where a wake order moves it. -/
def HeadLink.TakesWake (h : HeadLink) : Prop := h.state = .unknown ∨ h.state = .parking ∨ h.state = .headParked

variable {p}

theorem Part.wakeOrder_of_takesWake (h : p.head.TakesWake) : p.wakeOrder = p.enterHoming .wake := by
  unfold Part.wakeOrder
  rcases h with h | h | h <;> rw [h]

theorem Part.wakeOrder_of_not_takesWake (h : ¬ p.head.TakesWake) : p.wakeOrder = p := by
  unfold Part.wakeOrder
  split
  · next hs => exact absurd (.inl hs) h
  · next hs => exact absurd (.inr (.inl hs)) h
  · next hs => exact absurd (.inr (.inr hs)) h
  all_goals rfl

theorem Part.keeps_wakeOrder (p : Part) : p.Keeps p.wakeOrder := by
  by_cases h : p.head.TakesWake
  · have hhoming : p.Keeps p.homing := .after (Part.keeps_enterHead _ .homing) rfl rfl rfl
    rw [Part.wakeOrder_of_takesWake h]
    exact hhoming.trans (Part.keeps_nameAndStart _)
  · rw [Part.wakeOrder_of_not_takesWake h]
    exact .refl p

/-! ### The signal by belt state (R153, R159) -/

/-- The belt RUNNING from another state, its halt timer started. -/
def Part.beltRestarted (p : Part) : Part := (p.moveBelt .running).startHalt

theorem Part.wBelt_mem_beltRestarted (p : Part) : wBelt ∈ p.beltRestarted.dirty := (mem_insertRising _ _ _).2 (.inl rfl)

theorem Part.restartSignal_of_running (h : p.belt.present = .running) : p.restartSignal = p.startHalt := by
  unfold Part.restartSignal
  rw [h]

theorem Part.restartSignal_of_halted (h : p.belt.present = .halted) :
    p.restartSignal = { p.beltRestarted with belt.park := none } := by
  unfold Part.restartSignal
  rw [h]
  rfl

theorem Part.restartSignal_of_parked (h : p.belt.present = .parked) : p.restartSignal = p.beltRestarted.wakeOrder := by
  unfold Part.restartSignal
  rw [h]
  rfl

theorem Part.restartSignal_moves (h : p.belt.present ≠ .running) :
    p.restartSignal.belt.last = some p.belt.present ∧ wBelt ∈ p.restartSignal.dirty := by
  cases hb : p.belt.present with
  | running => exact absurd hb h
  | halted =>
    rw [Part.restartSignal_of_halted hb, ← hb]
    exact ⟨rfl, p.wBelt_mem_beltRestarted⟩
  | parked =>
    rw [Part.restartSignal_of_parked hb, Part.wakeOrder_belt, ← hb]
    exact ⟨rfl, p.beltRestarted.keeps_wakeOrder.dirty p.wBelt_mem_beltRestarted⟩

end Wake

/-- Settles O51, by the belt state the signal finds, and from PARKED by whether the head takes the wake order. -/
theorem restartSignal : Obligations.RestartSignal := by
  intro p q
  obtain ⟨hrunning, hhalt⟩ := p.restartSignal_running
  refine ⟨hrunning, hhalt, Part.restartSignal_of_running, Part.restartSignal_moves, fun h => ?halted, fun h => ?parked,
    fun h hwake => ?woken, fun h hunknown hparking hheadParked => ?left⟩
  case halted =>
    have hq : q = _ := Part.restartSignal_of_halted h
    rw [hq]
    exact ⟨rfl, rfl, rfl⟩
  all_goals
    have hq : q = _ := Part.restartSignal_of_parked h
    rw [hq]
  case parked =>
    rw [Part.wakeOrder_belt]
    rfl
  case woken =>
    rw [Part.wakeOrder_of_takesWake (p := p.beltRestarted) hwake, Part.enterHoming_head, Part.homing_head]
  case left =>
    have hstays : ¬ p.beltRestarted.head.TakesWake := not_or.2 ⟨hunknown, not_or.2 ⟨hparking, hheadParked⟩⟩
    rw [Part.wakeOrder_of_not_takesWake hstays]
    rfl

end Sys2Proof.Machine

/-! ## The strike window -/

namespace Sys2Proof.Machine

/-! ### The STRIKE frame and the frames after it (R137, R146, log entry 29) -/

section StrikeFrame

theorem getD_eq_strike_iff (latched : List SlotCmd) : latched.getD 5 .safe = .strike ↔ latched[5]? = some .strike := by
  rw [List.getD_eq_getElem?_getD]
  cases latched[5]? <;> simp

theorem confirms_eq_some {base : Option (BitVec 12)} {x : Option SlotStatus} {v : BitVec 12} (h : confirms base x = some v) :
    ∃ n, base = some n ∧ x = some (.idle (n + 1)) := by
  unfold confirms at h
  split at h
  · next n u =>
    obtain ⟨rfl, -⟩ := Option.ite_none_right_eq_some.1 h
    exact ⟨n, rfl, rfl⟩
  · cases h

variable {p : Part} {latched : List SlotCmd} {words : List (BitVec 16)}

theorem Part.not_afterStrikeFrame (h : latched[5]? = some .strike) : p.afterStrikeFrame latched = false := by
  rw [Part.afterStrikeFrame, decide_eq_false (not_not_intro ((getD_eq_strike_iff latched).2 h)), Bool.and_false]

theorem Part.afterStrikeFrame_of_sent (hst : p.head.state = .striking) (h : latched[5]? ≠ some .strike)
    (hheld : (p.head.slots.getD 5 (Slot.powerOn .safe)).held ≠ .strike) : p.afterStrikeFrame latched = true := by
  rw [Part.afterStrikeFrame, Part.strikeSent, hst, decide_eq_true hheld,
    decide_eq_true (mt (getD_eq_strike_iff latched).1 h)]
  rfl

/-- What the hammer said is its word decoded. -/
theorem Part.hammerSaid_decodes (hsix : p.head.slots.length = 6) (hl : latched.length = 6) {w : BitVec 16}
    (hw : words[5]? = some w) {x : SlotStatus} (h : p.hammerSaid latched words = some x) :
    parityGood w = true ∧ x = decodeStatus w := by
  have hjudged : (p.judged latched words)[5]? = _ := judgeAll_getElem? p.head.state p.head.hammerCount 0
    (List.getElem?_eq_getElem (by omega)) (List.getElem?_eq_getElem (by omega)) hw
  rw [Part.hammerSaid, hjudged] at h
  exact judgeSlot_decodes _ _ _ h

/-- A hammer word that is not a good IDLE one up from the base confirms nothing. -/
theorem Part.confirmed_eq_none (hsix : p.head.slots.length = 6) (hl : latched.length = 6) {w : BitVec 16}
    (hw : words[5]? = some w)
    (hnot : ¬ (parityGood w = true ∧ ∃ n, p.head.hammerCount = some n ∧ decodeStatus w = .idle (n + 1))) :
    p.confirmed latched words = none := by
  unfold Part.confirmed
  split
  · refine Option.eq_none_iff_forall_ne_some.2 fun v hv => hnot ?_
    obtain ⟨n, hbase, hsaid⟩ := confirms_eq_some hv
    obtain ⟨hp, hidle⟩ := Part.hammerSaid_decodes hsix hl hw hsaid
    exact ⟨hp, n, hbase, hidle.symm⟩
  · rfl

end StrikeFrame

/-! ### A frame of STRIKING without a fault condition (R141, R146) -/

section StrikingFrame

variable {p : Part} {latched : List SlotCmd} {words : List (BitVec 16)}

/-- The part when a frame after the STRIKE frame has been counted. -/
def Part.windowCounted (p : Part) (latched : List SlotCmd) (words : List (BitVec 16)) : Part :=
  { p.keepJudged (p.judged latched words) with head.window := p.head.window + 1 }

theorem Part.headActs_striking (h : p.head.state = .striking) : p.headActs none = p := by
  unfold Part.headActs
  rw [h]

theorem HeadState.striking_actsOnFaults {st : HeadState} (h : st = .striking) : st.actsOnFaults = true := by
  rw [h]
  rfl

variable (hst : p.head.state = .striking)
include hst

/-- The end of the STRIKE frame returns the hammer to ARM (R137). -/
theorem Part.endFrame_strikeFrame (hfault : firstFault 0 (p.judged latched words) = none)
    (hstrike : latched[5]? = some .strike) :
    p.endFrame latched words = (p.keepJudged (p.judged latched words)).holdArm := by
  have hafter := Part.not_afterStrikeFrame (p := p) hstrike
  have hconfirmed : p.confirmed latched words = none := by rw [Part.confirmed, hafter]; rfl
  have hcounted : p.counted latched words = (p.keepJudged (p.judged latched words)).holdArm := by
    rw [Part.counted, hafter]
    exact (if_pos hst).trans (if_pos ((getD_eq_strike_iff latched).2 hstrike))
  rw [Part.endFrame_eq, hconfirmed, hfault, hcounted, hafter, Part.actOnFrame_headActs, Part.headActs_striking]
  · exact hst
  · exact HeadState.striking_actsOnFaults hst
  · rfl

variable (hafter : p.afterStrikeFrame latched = true)
include hafter

theorem Part.counted_after : p.counted latched words = p.windowCounted latched words := by
  rw [Part.counted, hafter]
  exact Part.countFrame_after (p := p.keepJudged (p.judged latched words)) hst _

variable (hfault : firstFault 0 (p.judged latched words) = none) (hconfirmed : p.confirmed latched words = none)
include hfault hconfirmed

/-- While the window runs a frame is counted and no more. -/
theorem Part.endFrame_windowRuns (hwindow : p.head.window < 15) :
    p.endFrame latched words = p.windowCounted latched words := by
  have hrunning : ¬ 16 ≤ (p.windowCounted latched words).head.window := by
    show ¬ 16 ≤ p.head.window + 1
    omega
  rw [Part.endFrame_eq, hconfirmed, hfault, Part.counted_after hst hafter, Part.actOnFrame_headActs, Part.headActs_striking]
  · exact hst
  · exact HeadState.striking_actsOnFaults hst
  · simp [Part.windowOver, hrunning]

/-- The frame that fills the window sends the head to FAULTED for slot 5 with NO_STRIKE. -/
theorem Part.endFrame_windowOver (hwindow : 15 ≤ p.head.window) :
    p.endFrame latched words = (p.windowCounted latched words).enterFaulted 5 .noStrike := by
  have hfull : 16 ≤ (p.windowCounted latched words).head.window := Nat.succ_le_succ hwindow
  have hover : (p.windowCounted latched words).windowOver true none = true := by simp [Part.windowOver, hfull]
  rw [Part.endFrame_eq, hconfirmed, hfault, Part.counted_after hst hafter, hafter]
  unfold Part.actOnFrame
  rw [if_pos (HeadState.striking_actsOnFaults (st := (p.windowCounted latched words).head.state) hst), hover]
  rfl

end StrikingFrame

/-! ### The frame is over, and the belt is left -/

section FrameEnds

variable (p : Part)

/-- The frame in progress and the belt are left. -/
structure Part.SameFrame (p q : Part) : Prop where
  frame : q.head.frame = p.head.frame
  belt : q.belt = p.belt

variable {p}

theorem Part.SameFrame.refl (p : Part) : p.SameFrame p := ⟨rfl, rfl⟩

theorem Part.SameFrame.trans {q t : Part} (h : p.SameFrame q) (h' : q.SameFrame t) : p.SameFrame t :=
  ⟨h'.frame.trans h.frame, h'.belt.trans h.belt⟩

variable (p)

theorem Part.enterHead_sameFrame (st : HeadState) : p.SameFrame (p.enterHead st) := ⟨by simp, by simp⟩

theorem Part.enterReady_nameAndStart_sameFrame : p.SameFrame p.enterReady.nameAndStart :=
  ⟨p.homed_head.1, by simp⟩

theorem Part.finishStriking_sameFrame (o : StampOutcome) : p.SameFrame (p.finishStriking o) := by
  unfold Part.finishStriking
  split
  · split
    · exact ⟨by simp, by simp⟩
    · exact .refl p
  · exact .refl p

theorem Part.confirmStrike_sameFrame (count : BitVec 12) : p.SameFrame (p.confirmStrike count) := by
  obtain ⟨hframe, hbelt⟩ := Part.finishStriking_sameFrame { p with head.hammerCount := some count } .stamped
  have hleft : p.SameFrame (({ p with head.hammerCount := some count } : Part).finishStriking .stamped).dropInHand :=
    ⟨hframe, hbelt⟩
  exact hleft.trans (Part.enterReady_nameAndStart_sameFrame _)

theorem Part.headActs_sameFrame (confirmed : Option (BitVec 12)) : p.SameFrame (p.headActs confirmed) := by
  unfold Part.headActs
  split
  · split
    · exact p.enterReady_nameAndStart_sameFrame
    · exact .refl p
  · split
    · exact (p.enterHead_sameFrame .armed).trans ⟨rfl, rfl⟩
    · exact .refl p
  · split
    · exact p.confirmStrike_sameFrame _
    · exact .refl p
  · split
    · exact p.enterHead_sameFrame .headParked
    · exact .refl p
  all_goals exact .refl p

theorem Part.enterFaulted_sameFrame (i : Nat) (c : FaultCode) : p.SameFrame (p.enterFaulted i c) :=
  ⟨by rw [Part.enterFaulted_head], Part.enterFaulted_belt p i c⟩

theorem Part.withNoStrike_sameFrame (fault : Option (Nat × FaultCode)) : p.SameFrame (p.withNoStrike fault).1 := by
  unfold Part.withNoStrike
  split
  · exact .refl p
  · split <;> exact ⟨rfl, rfl⟩

theorem Part.actOn_sameFrame (confirmed : Option (BitVec 12)) (fault : Option (Nat × FaultCode)) :
    p.SameFrame (Part.actOn confirmed (p, fault)) := by
  cases fault with
  | none => exact p.headActs_sameFrame confirmed
  | some f => exact p.enterFaulted_sameFrame f.1 f.2

theorem Part.actOnFrame_sameFrame (after : Bool) (confirmed : Option (BitVec 12)) (fault : Option (Nat × FaultCode)) :
    p.SameFrame (p.actOnFrame after confirmed fault) := by
  unfold Part.actOnFrame
  split
  · split
    · exact (p.withNoStrike_sameFrame fault).trans (Part.actOn_sameFrame _ confirmed _)
    · exact p.actOn_sameFrame confirmed fault
  · exact .refl p

/-- However the head acts, a judged frame is over and the belt is left. -/
theorem Part.endFrame_over {latched : List SlotCmd} {words : List (BitVec 16)} (hsix : p.head.slots.length = 6)
    (hl : latched.length = 6) (hw : words.length = 6) :
    (p.endFrame latched words).head.frame = none ∧ (p.endFrame latched words).belt = p.belt := by
  obtain ⟨slots, count, window, -, -, hcounted⟩ := p.counted_frame hsix hl hw
  obtain ⟨hframe, hbelt⟩ := (p.counted latched words).actOnFrame_sameFrame (p.afterStrikeFrame latched)
    (p.confirmed latched words) (firstFault 0 (p.judged latched words))
  rw [← Part.endFrame_eq, hcounted] at hframe hbelt
  exact ⟨hframe, hbelt⟩

end FrameEnds

/-! ### What NO_STRIKE comes to (R127, R141) -/

section WindowOver

variable (p : Part) (i : Nat) (c : FaultCode)

/-- The head in FAULTED, before its jobs leave. -/
def Part.faultEntered : Part := (p.faultNoted i c).dropInHand.enterHead .faulted

theorem Part.enterFaulted_eq_missAll : p.enterFaulted i c = (p.faultEntered i c).missAll .headFault := rfl

theorem Part.faultEntered_recorder : (p.faultEntered i c).recorder = (p.raise .headFault (headFaultArg i c)).recorder :=
  Part.enterHead_recorder _ _

theorem Part.faultEntered_jobs : (p.faultEntered i c).jobs = p.jobs := by
  simp [Part.jobs, Part.faultEntered, Part.faultNoted]

variable {p}

theorem Part.missWaiting_appends (hc : p.lots.closing = none) (r : MissReason) (js : List Job) :
    p.Appends (p.missWaiting r js) := by
  induction js generalizing p with
  | nil => exact .of_eq hc rfl rfl
  | cons j js ih =>
    have hleft := Part.finishJob_appends (p := { p with sched.waiting := js }) hc j (.missed r)
    exact Part.Appends.trans ⟨hleft.closing, hleft.outgoing⟩ (ih hleft.closing)

theorem Part.finishCurrent_appends (hc : p.lots.closing = none) (o : StampOutcome) : p.Appends (p.finishCurrent o) := by
  unfold Part.finishCurrent
  split
  · next j _ =>
    have hleft := Part.finishJob_appends (p := { p with sched.current := none }) hc j o
    exact ⟨hleft.closing, hleft.outgoing⟩
  · exact .of_eq hc rfl rfl

theorem Part.missAll_appends (hc : p.lots.closing = none) (r : MissReason) : p.Appends (p.missAll r) :=
  have hleft := p.finishCurrent_appends hc (.missed r)
  hleft.trans (Part.missWaiting_appends hleft.closing r _)

variable (p)

/-- The event stands before whatever the jobs' outcomes add (log entry 21). -/
theorem Part.enterFaulted_event_first (hc : p.lots.closing = none) (hroom : p.recorder.outgoing.length < 8) :
    (p.recorder.outgoing ++ [.event .headFault p.tracker.rowIndex (headFaultArg i c)]) <+:
      (p.enterFaulted i c).recorder.outgoing := by
  have hclosing : (p.faultEntered i c).lots.closing = none := by
    rw [Part.faultEntered, Part.enterHead_lots]
    exact (p.raise_appends hc .headFault (headFaultArg i c)).closing
  rw [← Part.raise_outgoing p _ _ hroom, ← Part.faultEntered_recorder]
  exact (Part.missAll_appends hclosing .headFault).outgoing

theorem Part.missAll_of_no_jobs {p : Part} (h : p.jobs = []) (r : MissReason) : p.missAll r = p := by
  obtain ⟨hcurrent, hwaiting⟩ := List.append_eq_nil_iff.1 h
  have hstay : p.finishCurrent (.missed r) = p := by
    unfold Part.finishCurrent
    rw [Option.toList_eq_nil_iff.1 hcurrent]
  rw [Part.missAll, hstay, hwaiting]
  rfl

/-- With no job the event is all that the entry to FAULTED releases. -/
theorem Part.enterFaulted_event_alone (hj : p.jobs = []) (hroom : p.recorder.outgoing.length < 8) :
    (p.enterFaulted i c).recorder.outgoing =
      p.recorder.outgoing ++ [.event .headFault p.tracker.rowIndex (headFaultArg i c)] := by
  rw [Part.enterFaulted_eq_missAll, Part.missAll_of_no_jobs (by rw [Part.faultEntered_jobs, hj]), Part.faultEntered_recorder,
    Part.raise_outgoing p _ _ hroom]

/-- The head, the jobs and the held commands after the entry to FAULTED. -/
theorem Part.enterFaulted_effects (hsix : p.head.slots.length = 6) :
    (p.enterFaulted i c).head.state = .faulted ∧ (p.enterFaulted i c).head.inHand = none ∧ (p.enterFaulted i c).jobs = [] ∧
      (p.enterFaulted i c).head.errors = p.head.errors + 1 ∧
      (p.enterFaulted i c).head.slots.map Slot.held = [.hold, .hold, .hold, .hold, .hold, .safe] := by
  have hhead := p.enterFaulted_head i c
  exact ⟨congrArg HeadLink.state hhead, congrArg HeadLink.inHand hhead, p.enterFaulted_jobs i c,
    congrArg HeadLink.errors hhead, p.enterFaulted_held i c hsix⟩

end WindowOver

/-! ### The frame's end and the command -/

/-- The part with the strike window gone by (log entry 4). -/
def Part.windowFull (p : Part) : Part := { p with head.window := 16 }

theorem Part.windowRunsOut_of_striking {p : Part} (h : p.head.state = .striking) :
    p.windowRunsOut = p.windowFull.enterFaulted 5 .noStrike := if_pos h

/-- Settles O46: a frame of STRIKING is the STRIKE frame, a frame of the window, or the one that fills it; the command fills it at
once. -/
theorem noStrike : Obligations.NoStrike := by
  refine ⟨fun s f a b c d e h hframe hst hsix hlatched hclean => ?frame,
    fun s => ⟨fun hidle => ?idle, fun hst hsix => ?command⟩⟩
  case frame =>
    have hfault : firstFault 0 (s.part.judged f.latched [a, b, c, d, e, h]) = none := by
      rw [Part.judged, hst]
      exact hclean
    have hkept := s.part.keepJudged_six (words := [a, b, c, d, e, h]) hsix hlatched rfl
    obtain ⟨hnone, hbelt⟩ := s.part.endFrame_over (words := [a, b, c, d, e, h]) hsix hlatched rfl
    refine ⟨_, exec_frameEnd_eq hframe a b c d e h, rfl, hnone, hbelt, fun hstrike => ?strike,
      fun hother hheld hnot => ⟨fun hwindow => ?runs, fun hwindow => ?full⟩⟩
    case strike =>
      dsimp only
      rw [Part.endFrame_strikeFrame hst hfault hstrike]
      exact ⟨hst, rfl, rfl, holdAll_hammer hkept .arm⟩
    all_goals
      have hafter := Part.afterStrikeFrame_of_sent hst hother hheld
      have hconfirmed := Part.confirmed_eq_none (words := [a, b, c, d, e, h]) hsix hlatched rfl hnot
      dsimp only
    case runs =>
      rw [Part.endFrame_windowRuns hst hafter hfault hconfirmed hwindow]
      exact ⟨hst, rfl, rfl, rfl⟩
    case full =>
      rw [Part.endFrame_windowOver hst hafter hfault hconfirmed hwindow]
      obtain ⟨hstate, hhand, hjobs, herrors, hcommands⟩ :=
        (s.part.windowCounted f.latched [a, b, c, d, e, h]).enterFaulted_effects 5 .noStrike hkept
      exact ⟨hstate, hhand, hjobs, herrors, hcommands, fun hclosing hroom =>
        (s.part.windowCounted f.latched [a, b, c, d, e, h]).enterFaulted_event_first 5 .noStrike hclosing hroom⟩
  case idle =>
    exact congrArg Host.Outcome.next (State.onPart_of_eq (f := Part.windowRunsOut) (if_neg hidle))
  case command =>
    obtain ⟨hstate, hhand, hjobs, herrors, hcommands⟩ :=
      s.part.windowFull.enterFaulted_effects 5 .noStrike hsix
    refine ⟨{ s with part := s.part.windowRunsOut }, rfl, rfl, ?_⟩
    dsimp only
    rw [Part.windowRunsOut_of_striking hst]
    exact ⟨hstate, hhand, hjobs, herrors, hcommands, Part.enterFaulted_belt _ _ _,
      fun hroom hnone _ => s.part.windowFull.enterFaulted_event_alone 5 .noStrike hnone hroom⟩

end Sys2Proof.Machine

/-! ## The memory path: the queue of posted words and the status words -/

namespace Sys2Proof.Machine

/-! ### Words as fields (11.3, 11.5) -/

/-- A value joined to another stands in the bits above it. -/
theorem field_append {m n : Nat} (lo : Nat) (x : BitVec m) (y : BitVec n) :
    field lo (x ++ y).toNat = field lo y.toNat ||| field (lo + n) x.toNat := by
  simp only [field, BitVec.ofNat_toNat]
  ext i hi
  by_cases hlo : i < lo
  · simp [hlo, Nat.lt_add_right n hlo]
  · by_cases hn : i - lo < n
    · simp [BitVec.getLsbD_append, hlo, hn, (by omega : i < lo + n)]
    · have hbeyond : y.getLsbD (i - lo) = false := BitVec.getLsbD_of_ge _ _ (Nat.le_of_not_lt hn)
      have hnot : ¬ i < lo + n := by omega
      simp [BitVec.getLsbD_append, hlo, hn, hnot, hbeyond, Nat.sub_sub]

@[simp] theorem field_zero (lo : Nat) : field lo 0 = 0 := by simp [field]

theorem field_zero_toNat {n : Nat} (x : BitVec n) : field 0 x.toNat = x.setWidth 32 := by
  simp [field]

theorem bitField_eq (lo : Nat) (b : Bool) : bitField lo b = field lo (BitVec.ofBool b).toNat := by
  cases b <;> rfl

/-- A word is its own lowest field. -/
theorem eq_field (w : Word) : w = field 0 w.toNat := by simp [field]

theorem insertRising_pairwise (n : Nat) {l : List Nat} (h : l.Pairwise (· < ·)) : (insertRising n l).Pairwise (· < ·) := by
  induction l with
  | nil => simp [insertRising]
  | cons x xs ih =>
    obtain ⟨hx, hxs⟩ := List.pairwise_cons.1 h
    unfold insertRising
    split
    · next hlt => exact h.cons (List.forall_mem_cons.2 ⟨hlt, fun y hy => hlt.trans (hx y hy)⟩)
    · next hge =>
      split
      · exact h
      · next hne =>
        refine (ih hxs).cons fun y hy => ?_
        obtain rfl | hy := (mem_insertRising _ _ _).1 hy
        · omega
        · exact hx y hy

/-! ### What the status words show (11.3) -/

/-- The belt states as 11.3 codes them. -/
def BeltState.bits : BeltState → BitVec 2
  | .running => 0
  | .halted => 1
  | .parked => 2

/-- The head states as 11.3 codes them. -/
def HeadState.bits : HeadState → BitVec 4
  | .unknown => 0
  | .homing => 1
  | .ready => 2
  | .preparing => 3
  | .armed => 4
  | .striking => 5
  | .faulted => 6
  | .parking => 7
  | .headParked => 8

/-- The result codes as 11.3 codes them. -/
def ResultCode.bits : ResultCode → BitVec 3
  | .done => 0
  | .deferred => 1
  | .range => 2
  | .busy => 3
  | .state => 4
  | .unknown => 5

theorem BeltState.toNat_bits (b : BeltState) : b.code = b.bits.toNat := by cases b <;> rfl

theorem HeadState.toNat_bits (h : HeadState) : h.code = h.bits.toNat := by cases h <;> rfl

theorem ResultCode.toNat_bits (r : ResultCode) : r.code = r.bits.toNat := by cases r <;> rfl

theorem lastBeltCode_eq (b : Option BeltState) : lastBeltCode b = (b.elim 3 BeltState.bits).toNat := by
  cases b with
  | none => rfl
  | some b => exact b.toNat_bits

section StatusWords

variable (p : Part)

theorem Part.statusWord_identification :
    p.statusWord 0 = Config.siliconRevision ++ (0x38 : Byte) ++ (0x0157 : Half) := by
  rw [eq_field (_ ++ _), field_append, field_append]
  simp [Part.statusWord, BitVec.or_assoc]

theorem Part.statusWord_belt : p.statusWord wBelt =
    (0 : BitVec 20) ++ p.head.state.bits ++ (0 : BitVec 4) ++ p.belt.last.elim 3 BeltState.bits ++ p.belt.present.bits := by
  rw [eq_field (_ ++ _), field_append, field_append, field_append, field_append]
  simp [wBelt, Part.statusWord, BeltState.toNat_bits, HeadState.toNat_bits, lastBeltCode_eq, BitVec.or_assoc]

theorem Part.statusWord_sticky : p.statusWord wSticky =
    (0 : BitVec 23) ++ BitVec.ofBool p.lots.markDropSticky ++ (0 : BitVec 4) ++ p.lots.sticky := by
  rw [eq_field (_ ++ _), field_append, field_append, field_append]
  simp [wSticky, Part.statusWord, bitField_eq]

theorem Part.statusWord_closingLot {l : Lot} (h : p.lots.closing = some l) : p.statusWord wClosingLot = (1 : Half) ++ l.id := by
  rw [eq_field (_ ++ _), field_append]
  simp [wClosingLot, Part.statusWord, closingWord, h]

theorem Part.statusWord_commit : p.statusWord wCommit = if p.setup.snapshot = none then 0 else 1 := by
  cases h : p.setup.snapshot <;> simp [wCommit, Part.statusWord, h] <;> rfl

theorem Part.statusWord_result : p.statusWord wResult =
    p.setup.result.tag ++ p.setup.result.offset ++ (0 : BitVec 1) ++ p.setup.result.result.bits ++ p.setup.result.code := by
  rw [eq_field (_ ++ _), field_append, field_append, field_append, field_append]
  simp [wResult, Part.statusWord, ResultCode.toNat_bits, BitVec.or_assoc]

theorem Part.statusWord_beyond {k : Nat} (h : 18 ≤ k) : p.statusWord k = 0 := by
  obtain ⟨n, rfl⟩ := Nat.exists_eq_add_of_le' h
  rfl

end StatusWords

/-! ### Places and producers (R171) -/

section Places

variable {s : State}

theorem MemPath.placesTaken_of_free {m : MemPath} (h : m.port = none) : m.placesTaken = m.queue.length := by
  simp [MemPath.placesTaken, h]

theorem MemPath.placesTaken_of_partWord {m : MemPath} {w : Posted} (h : m.port = some (.partWord w)) :
    m.placesTaken = m.queue.length + 1 := by
  simp [MemPath.placesTaken, h]

theorem MemPath.hasPlace_iff {m : MemPath} : m.hasPlace = true ↔ m.placesTaken < 16 := decide_eq_true_iff

theorem State.postStatus_of_clean (h : s.part.dirty = []) : s.postStatus = s := by
  simp [State.postStatus, h]

theorem State.postStatus_of_dirty {w : Nat} {rest : List Nat} (h : s.part.dirty = w :: rest) :
    s.postStatus = { s.post (s.path.statusAddr w) (s.part.statusWord w) with part.dirty := rest } := by
  simp [State.postStatus, h]

/-- A word of the record while one of the sixteen is left. -/
theorem State.postRecord_of_word {o : Outgoing} (ho : s.part.recorder.inProgress = some o) (hn : o.next < 16) :
    s.postRecord = { s.post (s.part.recordAddr o.next) (o.record.words.getD o.next 0) with
      part.recorder.inProgress := some { o with next := o.next + 1 } } := by
  simp [State.postRecord, State.postRecordWord, ho, hn]

/-- The producer index when none of the sixteen is left. -/
theorem State.postRecord_of_index {o : Outgoing} (ho : s.part.recorder.inProgress = some o) (hn : 16 ≤ o.next) :
    s.postRecord = { s.post (s.path.statusAddr wProducer) (field 0 s.part.nextProducer) with
      part := ({ s.part with
        recorder.p := s.part.nextProducer
        recorder.inProgress := none } : Part).mark wProducer } := by
  simp [State.postRecord, State.postProducerIndex, ho, Nat.not_lt.2 hn]

theorem State.postRecord_of_none (ho : s.part.recorder.inProgress = none) : s.postRecord = s := by
  simp [State.postRecord, ho]

theorem Part.statusWaits_iff {p : Part} : p.statusWaits = true ↔ p.dirty ≠ [] := by simp [Part.statusWaits]

theorem Part.statusWaits_of_clean {p : Part} (h : p.dirty = []) : p.statusWaits = false := by simp [Part.statusWaits, h]

theorem Part.recordWaits_of_none {p : Part} (h : p.recorder.inProgress = none) : p.recordWaits = false := by
  simp [Part.recordWaits, h]

/-- Nobody waits. -/
theorem State.offerPlace_of_idle (hd : s.part.dirty = []) (hr : s.part.recorder.inProgress = none) : s.offerPlace = s := by
  rw [State.offerPlace, State.placeTaker, Part.statusWaits_of_clean hd, Part.recordWaits_of_none hr]

/-- The status writer waits, and the record writer does not or has not the turn. -/
theorem State.offerPlace_of_status (hd : s.part.dirty ≠ [])
    (hr : s.part.recorder.inProgress = none ∨ s.path.turn = .statusWriter) :
    s.offerPlace = { s.postStatus with path.turn := .recordWriter } := by
  have htaker : s.placeTaker = some .statusWriter := by
    rw [State.placeTaker, Part.statusWaits_iff.2 hd]
    obtain hr | hr := hr
    · rw [Part.recordWaits_of_none hr]
    · cases s.part.recordWaits <;> simp [hr]
  rw [State.offerPlace, htaker]

/-- The record writer waits, and the status writer does not or has not the turn. -/
theorem State.offerPlace_of_record {o : Outgoing} (ho : s.part.recorder.inProgress = some o)
    (hd : s.part.dirty = [] ∨ s.path.turn = .recordWriter) :
    s.offerPlace = { s.postRecord with path.turn := .statusWriter } := by
  have htaker : s.placeTaker = some .recordWriter := by
    rw [State.placeTaker, show s.part.recordWaits = true by simp [Part.recordWaits, ho]]
    obtain hd | hd := hd
    · rw [Part.statusWaits_of_clean hd]
    · cases s.part.statusWaits <;> simp [hd]
  rw [State.offerPlace, htaker]

end Places

/-- Settles O59: the words by their fields, a post by whether it finds a place and a dirty word, a mark by insertion. -/
theorem statusWordPost : Obligations.StatusWordPost := by
  refine ⟨?words, fun s => ⟨fun h => ?idle, fun w rest hdirty hplace => ?post,
    fun p w k => mem_insertRising w k p.dirty, fun p w => insertRising_pairwise w⟩⟩
  case words =>
    intro p belt head result
    have hbelt : belt = BeltState.bits := by funext b; cases b <;> rfl
    have hhead : head = p.head.state.bits := by cases h : p.head.state <;> simp only [head, h] <;> rfl
    have hresult : result = p.setup.result.result.bits := by
      cases h : p.setup.result.result <;> simp only [result, h] <;> rfl
    rw [hbelt, hhead, hresult]
    exact ⟨p.statusWord_identification, p.statusWord_belt, rfl, field_zero_toNat _, rfl, rfl, rfl, rfl, rfl, rfl, rfl, rfl,
      p.statusWord_sticky, field_zero_toNat _, fun h => congrArg closingWord h, fun _ h => p.statusWord_closingLot h,
      p.statusWord_commit, p.statusWord_result, by simp [Part.statusWord, field], fun _ h => p.statusWord_beyond h⟩
  case idle =>
    refine congrArg Host.Outcome.next ?_
    obtain hclean | hfull := h
    · rw [State.postStatus_of_clean hclean, ite_self]
    · exact if_neg (MemPath.hasPlace_iff.not.2 hfull.not_gt)
  case post =>
    refine congrArg Host.Outcome.next ((if_pos (MemPath.hasPlace_iff.2 hplace)).trans ?_)
    rw [State.postStatus_of_dirty hdirty]
    rfl

end Sys2Proof.Machine

/-! ## The memory path: part words on the memory port -/

namespace Sys2Proof.Machine

/-! ### A word in the RAM (R164) -/

section Word

variable {m : Memory} {addr : BitVec 24} {en : Lanes} {w : Word}

/-- An enabled lane of a written word stands at the lane's address. -/
theorem Memory.read_writeWord_lane (h : m.wf = true) {l : Nat} (hl : l < 4) (hen : en.getLsbD l = true) :
    (m.writeWord addr en w).read (laneAddr addr l) = laneByte w l := by
  have hne {j : Nat} (hj : j < 4) (hlj : l ≠ j) : ¬ (en.getLsbD j = true ∧ laneAddr addr l = laneAddr addr j) :=
    fun ⟨_, e⟩ => laneAddr_ne addr hl hj hlj e
  rw [Memory.read_writeWord _ _ _ _ h]
  interval_cases l
  · rw [if_neg (hne _ _), if_neg (hne _ _), if_neg (hne _ _), if_pos ⟨hen, rfl⟩] <;> decide
  · rw [if_neg (hne _ _), if_neg (hne _ _), if_pos ⟨hen, rfl⟩] <;> decide
  · rw [if_neg (hne _ _), if_pos ⟨hen, rfl⟩] <;> decide
  · rw [if_pos ⟨hen, rfl⟩]

/-- A byte at no enabled lane's address is as before. -/
theorem Memory.read_writeWord_of_ne (h : m.wf = true) {a : Nat}
    (ha : ∀ l, l < 4 → en.getLsbD l = true → laneAddr addr l ≠ a) :
    (m.writeWord addr en w).read a = m.read a := by
  have hne {j : Nat} (hj : j < 4) : ¬ (en.getLsbD j = true ∧ a = laneAddr addr j) := fun ⟨hen, e⟩ => ha j hj hen e.symm
  rw [Memory.read_writeWord _ _ _ _ h, if_neg (hne _), if_neg (hne _), if_neg (hne _), if_neg (hne _)] <;> decide

theorem getLsbD_allLanes (l : Nat) (hl : l < 4) : (0xF : Lanes).getLsbD l = true := by
  interval_cases l <;> rfl

end Word

/-! ### The fairness count (R173) -/

section Fairness

variable (s : State)

@[simp] theorem State.postStatus_fairness : s.postStatus.path.fairness = s.path.fairness := by
  unfold State.postStatus; split <;> rfl

@[simp] theorem State.postRecord_fairness : s.postRecord.path.fairness = s.path.fairness := by
  cases ho : s.part.recorder.inProgress with
  | none => rw [State.postRecord_of_none ho]
  | some o =>
    obtain hn | hn := Nat.lt_or_ge o.next 16
    · rw [State.postRecord_of_word ho hn]; rfl
    · rw [State.postRecord_of_index ho hn]; rfl

@[simp] theorem State.offerPlace_fairness : s.offerPlace.path.fairness = s.path.fairness := by
  unfold State.offerPlace
  split
  · exact s.postStatus_fairness
  · exact s.postRecord_fairness
  · rfl

end Fairness

/-! ### A part word goes to the port, and completes (R171, R172) -/

section PartWord

variable {s : State}

/-- The state with a part word in the RAM and the port free. -/
def State.partWordWritten (s : State) (w : Posted) : State :=
  { s with path.ram := s.path.ram.writeWord w.addr 0xF w.data, path.port := none }

theorem State.startPartWord_of_free {w : Posted} {rest : List Posted} (hport : s.path.port = none)
    (hqueue : s.path.queue = w :: rest) :
    s.startPartWord = { s with path.port := some (.partWord w), path.queue := rest, path.fairness := 0 } := by
  simp [State.startPartWord, hport, hqueue]

/-- The port is taken or nothing waits. -/
theorem State.startPartWord_of_nothing (h : s.path.port.isSome = true ∨ s.path.queue = []) : s.startPartWord = s := by
  unfold State.startPartWord
  split
  · next hport hqueue => simp [hport, hqueue] at h
  · rfl

theorem State.completePartWord_of_none (h : ∀ w, s.path.port ≠ some (.partWord w)) : s.completePartWord = s := by
  unfold State.completePartWord
  split
  · next w hport => exact absurd hport (h w)
  · rfl
  · rfl

/-- With a place free before the completion nobody is offered one. -/
theorem State.completePartWord_of_place {w : Posted} (hport : s.path.port = some (.partWord w))
    (hplace : s.path.queue.length < 15) : s.completePartWord = s.partWordWritten w := by
  have htaken : s.path.hasPlace = true := by
    rw [MemPath.hasPlace_iff, MemPath.placesTaken_of_partWord hport]
    omega
  simp [State.completePartWord, State.partWordWritten, hport, htaken]

/-- With every place taken until the completion the freed one is offered. -/
theorem State.completePartWord_of_full {w : Posted} (hport : s.path.port = some (.partWord w))
    (hfull : 15 ≤ s.path.queue.length) : s.completePartWord = (s.partWordWritten w).offerPlace := by
  have htaken : ¬ s.path.hasPlace = true := by
    rw [MemPath.hasPlace_iff, MemPath.placesTaken_of_partWord hport]
    omega
  simp [State.completePartWord, State.partWordWritten, hport, htaken]

theorem State.completePartWord_cases {w : Posted} (hport : s.path.port = some (.partWord w)) :
    s.completePartWord = s.partWordWritten w ∨ s.completePartWord = (s.partWordWritten w).offerPlace := by
  obtain hplace | hfull := Nat.lt_or_ge s.path.queue.length 15
  · exact .inl (State.completePartWord_of_place hport hplace)
  · exact .inr (State.completePartWord_of_full hport hfull)

theorem State.completePartWord_port {w : Posted} (hport : s.path.port = some (.partWord w)) :
    s.completePartWord.path.port = none := by
  obtain h | h := State.completePartWord_cases hport <;> simp [h, State.partWordWritten]

theorem State.completePartWord_ram {w : Posted} (hport : s.path.port = some (.partWord w)) :
    s.completePartWord.path.ram = s.path.ram.writeWord w.addr 0xF w.data := by
  obtain h | h := State.completePartWord_cases hport <;> simp [h, State.partWordWritten]

@[simp] theorem State.completePartWord_fairness (s : State) : s.completePartWord.path.fairness = s.path.fairness := by
  unfold State.completePartWord
  split <;> dsimp only
  split <;> simp

end PartWord

/-- Settles O54: the word leaves the queue and is written; the place it frees goes by who waits (R171). -/
theorem postedWordsInOrder : Obligations.PostedWordsInOrder := by
  refine fun s => ⟨fun h => congrArg _ (State.startPartWord_of_nothing h),
    fun w rest hport hqueue => congrArg _ (State.startPartWord_of_free hport hqueue),
    fun h => congrArg _ (State.completePartWord_of_none h), fun w hport hram => ?_⟩
  refine ⟨s.completePartWord, rfl, State.completePartWord_port hport, s.completePartWord_fairness, fun l hl => ?lane,
    fun a ha => ?byte, fun hplace => ?place, fun hfull hd hr => ?nobody, fun k rest hfull hd hr => ?status,
    fun o hfull ho hd => ?record⟩
  case lane =>
    rw [State.completePartWord_ram hport]
    exact Memory.read_writeWord_lane hram hl (getLsbD_allLanes l hl)
  case byte =>
    rw [State.completePartWord_ram hport]
    exact Memory.read_writeWord_of_ne hram fun l hl _ => ha l hl
  case place =>
    rw [State.completePartWord_of_place hport hplace]
    exact ⟨rfl, rfl, rfl⟩
  all_goals
    rw [State.completePartWord_of_full hport hfull.ge]
  case nobody =>
    rw [State.offerPlace_of_idle (s := s.partWordWritten w) hd hr]
    exact ⟨rfl, rfl, rfl⟩
  case status =>
    have hdirty : (s.partWordWritten w).part.dirty = k :: rest := hd
    rw [State.offerPlace_of_status (s := s.partWordWritten w) (by simp [hdirty]) hr, State.postStatus_of_dirty hdirty]
    exact ⟨rfl, rfl, rfl⟩
  case record =>
    rw [State.offerPlace_of_record (s := s.partWordWritten w) ho hd]
    refine ⟨rfl, fun hn => ?_, fun hn => ?_⟩
    · rw [State.postRecord_of_word (s := s.partWordWritten w) ho hn]
      exact ⟨rfl, rfl⟩
    · rw [State.postRecord_of_index (s := s.partWordWritten w) ho hn]
      intro n
      refine ⟨?_, rfl⟩
      simp [n, State.partWordWritten, State.post, MemPath.statusAddr, wProducer, field, Part.nextProducer]

end Sys2Proof.Machine

/-! ## The setup page: writes beat by beat -/

namespace Sys2Proof.Machine

/-! ### A beat at a word of the setup area (R175 to R177) -/

section SetupBeat

variable (p : Part) (en : Lanes) (data : Word)

theorem Part.setupBeat_staged {i : Nat} (h : i < 48) : p.setupBeat i en data = p.writeStaged i en data := if_pos h

/-- Words 0x0C0 to 0x12C hold no field, and the consumer-index word is the record writer's. -/
theorem Part.setupBeat_noField {i : Nat} (hlow : 48 ≤ i) (hhigh : i < 77) : p.setupBeat i en data = p := by
  rw [Part.setupBeat, if_neg (by omega), if_neg (by omega), if_neg (by omega), if_neg (by omega)]

/-- A command word is taken with all four lanes only. -/
theorem Part.commandBeat_of_partial (h : en ≠ 0xF) : p.commandBeat en data = p := if_neg h

end SetupBeat

/-- The command that a code of the command word names (11.2). -/
def codeInstr (code : BitVec 4) (tag : Half) : Instr :=
  if code = 1 then .commit tag
  else if code = 2 then .lotNext tag
  else if code = 3 then .manualEnter tag
  else if code = 4 then .clearSticky tag
  else if code = 5 then .headReset tag
  else if code = 6 then .parkNow tag
  else if code = 7 then .restart tag
  else .unknownCommand code tag

theorem exec_setupWordWrite_of_lt {word : BitVec 7} (h : word.toNat < 80) (en : Lanes) (data : Word) (s : State) :
    exec (.setupWordWrite word en data) s = .next (s.onPart fun p => p.setupBeat word.toNat en data) := if_pos h

theorem exec_statusBlockWrite_of_lt {word : BitVec 6} (h : word.toNat < 48) (s : State) :
    exec (.statusBlockWrite word) s = .next (s.onPart fun p => p.mark word.toNat) := if_pos h

theorem unknownCode_or_known (code : BitVec 4) : isUnknownCode code = true ∨
    code = 1 ∨ code = 2 ∨ code = 3 ∨ code = 4 ∨ code = 5 ∨ code = 6 ∨ code = 7 := by
  revert code
  decide

theorem toNat_of_unknownCode {code : BitVec 4} (h : isUnknownCode code = true) : code.toNat = 0 ∨ 8 ≤ code.toNat := by
  revert code
  decide

theorem codeInstr_of_unknown {code : BitVec 4} (h : isUnknownCode code = true) (tag : Half) :
    codeInstr code tag = .unknownCommand code tag := by
  have hne (k : BitVec 4) (hk : isUnknownCode k = false) : code ≠ k := by
    rintro rfl
    simp [h] at hk
  simp only [codeInstr, hne 1 rfl, hne 2 rfl, hne 3 rfl, hne 4 rfl, hne 5 rfl, hne 6 rfl, hne 7 rfl, if_false]

theorem Part.commandBeat_of_unknown (p : Part) {data : Word} (h : isUnknownCode (cmdCode data) = true) :
    p.commandBeat 0xF data = p.unknownCommand (cmdCode data) (cmdTag data) := by
  have hcode := toNat_of_unknownCode h
  simp only [Part.commandBeat, if_true]
  split
  case h_8 => rfl
  all_goals omega

/-- The command word runs the command its code names (R177). -/
theorem exec_codeInstr (data : Word) (s : State) :
    exec (codeInstr (cmdCode data) (cmdTag data)) s = .next (s.onPart fun p => p.commandBeat 0xF data) := by
  obtain hunknown | hknown := unknownCode_or_known (cmdCode data)
  · simp only [codeInstr_of_unknown hunknown, Part.commandBeat_of_unknown _ hunknown]
    exact if_pos hunknown
  · unfold Part.commandBeat
    obtain h | h | h | h | h | h | h := hknown
    all_goals
      rw [h]
      rfl

/-- Settles O55: the word by its place in the setup area, the command word by its code. -/
theorem pageWrites : Obligations.PageWrites := by
  refine fun en data s => ⟨fun k hk => ?staged, fun k hlow hhigh => ?noField, rfl, rfl, rfl, rfl, fun hen => ?ignored, ?command,
    fun w hw => ?status⟩
  case staged =>
    rw [exec_setupWordWrite_of_lt (by omega)]
    refine congrArg Host.Outcome.next ?_
    rw [State.onPart, Part.setupBeat_staged _ _ _ hk]
    rfl
  case noField =>
    rw [exec_setupWordWrite_of_lt (by omega)]
    exact congrArg Host.Outcome.next (State.onPart_of_eq (Part.setupBeat_noField _ _ _ hlow hhigh))
  case ignored =>
    exact congrArg Host.Outcome.next (State.onPart_of_eq (Part.commandBeat_of_partial _ _ _ hen))
  case command =>
    intro tag code
    calc exec (.setupWordWrite 79 0xF data) s
      _ = exec (codeInstr code tag) s := (exec_codeInstr data s).symm
      _ = _ := by simp only [codeInstr, apply_ite (exec · s)]
  case status =>
    refine ⟨_, exec_statusBlockWrite_of_lt hw s, rfl, fun k => ?_⟩
    exact mem_insertRising _ _ _

end Sys2Proof.Machine

/-! ## Every step keeps the RAM in its canonical form -/

namespace Sys2Proof.Machine

/-! ### The path's operations -/

section RamKept

variable {s : State}

theorem State.startPartWord_ram (s : State) : s.startPartWord.path.ram = s.path.ram := by
  unfold State.startPartWord
  split <;> rfl

variable (h : s.ramOk)
include h

theorem State.startPartWord_ramOk : s.startPartWord.ramOk := by
  rw [State.ramOk, State.startPartWord_ram]
  exact h

theorem State.completePartWord_ramOk : s.completePartWord.ramOk := by
  by_cases hport : ∃ w, s.path.port = some (.partWord w)
  · obtain ⟨w, hport⟩ := hport
    rw [State.ramOk, State.completePartWord_ram hport]
    exact Memory.wf_writeWord _ _ _ h
  · rw [State.completePartWord_of_none (not_exists.1 hport)]
    exact h

theorem State.writePartWords_ramOk (n : Nat) : (s.writePartWords n).ramOk := by
  induction n generalizing s with
  | zero => exact h
  | succ n ih => exact ih (State.completePartWord_ramOk (State.startPartWord_ramOk h))

/-- A write beat writes a word, a read beat none. -/
theorem State.carryBeat_ramOk (write : Bool) (addr : BitVec 24) (b : Beat) : (s.carryBeat write addr b).ramOk := by
  cases write
  · exact h
  · exact Memory.wf_writeWord addr b.enables b.data h

theorem State.carryBeats_ramOk (t : Transaction) (bs : List Beat) (k : Nat) : (s.carryBeats t bs k).ramOk := by
  induction bs generalizing s k with
  | nil => exact h
  | cons b bs ih => exact ih (State.carryBeat_ramOk h _ _ _) _

theorem State.carryOn_ramOk (t : Transaction) (passed count : Nat) : (s.carryOn t passed count).ramOk := by
  have hbeats := State.carryBeats_ramOk h t ((t.beats.drop passed).take count) passed
  unfold State.carryOn
  dsimp only
  split <;> exact hbeats

theorem State.finishPort_ramOk : s.finishPort.ramOk := by
  unfold State.finishPort
  split
  · exact h
  · exact State.completePartWord_ramOk h
  · exact State.carryOn_ramOk h _ _ _

theorem State.fairnessWord_ramOk : s.fairnessWord.ramOk := by
  unfold State.fairnessWord
  split
  · exact State.writePartWords_ramOk h 1
  · exact h

/-- The issue puts the transaction on the port and leaves the RAM. -/
theorem State.takeUp_ramOk (t : Transaction) : (s.takeUp t).ramOk :=
  State.writePartWords_ramOk (State.fairnessWord_ramOk (State.finishPort_ramOk h)) _

theorem State.upstream_ramOk (request : Option Transaction) (pause : Option Nat) : (s.upstream request pause).ramOk := by
  unfold State.upstream
  split
  · exact State.carryOn_ramOk (State.takeUp_ramOk h _) _ _ _
  · split
    · exact State.carryOn_ramOk h _ _ _
    · exact h
    · exact h

end RamKept

/-! ### Every command -/

/-- A next state, if the outcome is one, has its RAM in the canonical form. -/
def AnswersRamOk (o : Host.Outcome State Fault Refusal) : Prop := ∀ t, o = .next t → t.ramOk

theorem AnswersRamOk.next {t : State} (h : t.ramOk) : AnswersRamOk (.next t) := fun _ e => Host.Outcome.next.inj e ▸ h

theorem AnswersRamOk.refused (r : Refusal) : AnswersRamOk (.refused r) := fun _ e => absurd e (by simp)

/-- A command that acts inside the part alone is an operation of the part, or is refused (log entry 25). -/
theorem exec_of_partOnly {i : Instr} (h : partOnly i = true) (s : State) :
    (∃ f, exec i s = .next (s.onPart f)) ∨ exec i s = .refused .illFormed := by
  cases i with
  | powerOnReset | upstreamTransaction | postedWordWrite | partWordComplete | recordWordHandIn | producerIndexHandIn
  | statusWordPost => cases h
  | setupWordWrite word en data => exact (ite_eq_or_eq _ _ _).imp_left fun e => ⟨_, e⟩
  | statusBlockWrite word => exact (ite_eq_or_eq _ _ _).imp_left fun e => ⟨_, e⟩
  | unknownCommand code tag => exact (ite_eq_or_eq _ _ _).imp_left fun e => ⟨_, e⟩
  | _ => exact .inl ⟨_, rfl⟩

theorem State.ifPlace_ramOk {s t : State} (h : s.ramOk) (ht : t.path.ram = s.path.ram) :
    (if s.path.hasPlace then t else s).ramOk := by
  rw [State.ramOk, apply_ite (fun u : State => u.path.ram), ht, ite_self]
  exact h

theorem exec_answersRamOk {s : State} (h : s.ramOk) (i : Instr) : AnswersRamOk (exec i s) := by
  cases hpart : partOnly i with
  | true =>
    obtain ⟨f, he⟩ | he := exec_of_partOnly hpart s
    · exact he ▸ .next h
    · exact he ▸ .refused _
  | false =>
    cases i with
    | powerOnReset straps => exact .next h
    | upstreamTransaction request pause =>
      simp only [exec_upstreamTransaction, execUpstreamTransaction]
      split
      · exact .next (State.upstream_ramOk h request pause)
      · exact .refused _
    | postedWordWrite => exact .next (State.startPartWord_ramOk h)
    | partWordComplete => exact .next (State.completePartWord_ramOk h)
    | recordWordHandIn => exact .next (State.ifPlace_ramOk h s.postRecordWord_ram)
    | producerIndexHandIn => exact .next (State.ifPlace_ramOk h s.postProducerIndex_ram)
    | statusWordPost => exact .next (State.ifPlace_ramOk h s.postStatus_ram)
    | _ => cases hpart

/-- Settles O5: a microsecond passes in the part alone, and a command keeps the form by the operation it is. -/
theorem ramStaysCanonical : Obligations.RamStaysCanonical := by
  intro s t h he
  cases hp : s.pending with
  | nil => exact AnswersRamOk.next (t := { s with part := s.part.tick }) h t ((step_nil s hp).symm.trans he)
  | cons c rest =>
    have hrest : State.ramOk { s with pending := rest } := h
    exact exec_answersRamOk hrest c t ((step_cons s c rest hp).symm.trans he)

end Sys2Proof.Machine

/-! ## The memory path: what comes before an upstream transaction -/

namespace Sys2Proof.Machine

/-! ### The transaction as a command -/

/-- A transaction of one to eight beats is taken up and its beats carried, any other refused. -/
theorem exec_upstream (x : Transaction) (pause : Option Nat) (s : State) :
    exec (.upstreamTransaction (some x) pause) s =
      if x.wellFormed then .next ((s.takeUp x).carryOn x 0 (beatsToPass pause x.beats.length)) else .refused .illFormed := rfl

theorem Transaction.wellFormed_iff {x : Transaction} :
    x.wellFormed = true ↔ 1 ≤ x.beats.length ∧ x.beats.length ≤ 8 := by
  simp [Transaction.wellFormed]

/-- A transaction does the same in two states that the arbiter takes it up in alike. -/
theorem exec_upstream_congr {s u : State} {x : Transaction} (h : s.takeUp x = u.takeUp x) (pause : Option Nat) :
    exec (.upstreamTransaction (some x) pause) s = exec (.upstreamTransaction (some x) pause) u := by
  rw [exec_upstream, exec_upstream, h]

theorem mem_beatAddrs {x : Transaction} {a : BitVec 24} :
    a ∈ beatAddrs x ↔ ∃ k, k < x.beats.length ∧ a = beatAddr x.start k := by
  simp [beatAddrs, eq_comm]

/-! ### Beat addresses (R165) -/

/-- The address of a beat, cut into the block's, the word's in the block, and the two lowest bits. -/
theorem beatAddr_eq_append (start : BitVec 24) (k : Nat) :
    beatAddr start k = start.extractLsb' 5 19 ++ (start + BitVec.ofNat 24 (4 * k)).extractLsb' 2 3 ++ 0#2 := by
  have hblock : ∀ i : Fin 24, (0xFFFFE0 : BitVec 24).getLsbD i = decide (5 ≤ i.val) := by decide
  have hword : ∀ i : Fin 24, (0x1C : BitVec 24).getLsbD i = decide (2 ≤ i.val ∧ i.val < 5) := by decide
  unfold beatAddr
  generalize start + BitVec.ofNat 24 (4 * k) = next
  apply BitVec.eq_of_getLsbD_eq
  intro i hi
  rw [BitVec.getLsbD_or, BitVec.getLsbD_and, BitVec.getLsbD_and, hblock ⟨i, hi⟩, hword ⟨i, hi⟩]
  simp only [BitVec.getLsbD_append]
  obtain hlow | hmid | hhigh : i < 2 ∨ (2 ≤ i ∧ i < 5) ∨ 5 ≤ i := by omega
  · have hblock : ¬ 5 ≤ i := by omega
    have hword : ¬ 2 ≤ i := by omega
    simp [hlow, hblock, hword]
  · have hplace : ¬ i < 2 := by omega
    have hblock : ¬ 5 ≤ i := by omega
    have hword : i - 2 < 3 := by omega
    have hbit : 2 + (i - 2) = i := by omega
    simp [hplace, hblock, hmid, hword, hbit]
  · have hplace : ¬ i < 2 := by omega
    have hword : ¬ i < 5 := by omega
    have hoff : ¬ i - 2 < 3 := by omega
    have hbound : i - 2 - 3 < 19 := by omega
    have hbit : 5 + (i - 2 - 3) = i := by omega
    simp [hplace, hhigh, hword, hoff, hbound, hbit]

/-- The words of a burst wrap inside their 32-byte block. -/
theorem toNat_beatAddr (start : BitVec 24) (k : Nat) :
    (beatAddr start k).toNat = start.toNat / 32 * 32 + (start.toNat / 4 + k) % 8 * 4 := by
  have hstart := start.isLt
  have hword := ((start + BitVec.ofNat 24 (4 * k)).extractLsb' 2 3).isLt
  rw [beatAddr_eq_append, BitVec.toNat_append, BitVec.toNat_append, ← Nat.shiftLeft_add_eq_or_of_lt hword,
    BitVec.toNat_ofNat, Nat.zero_mod, Nat.or_zero]
  simp only [BitVec.extractLsb'_toNat, Nat.shiftLeft_eq, Nat.shiftRight_eq_div_pow, BitVec.toNat_add, BitVec.toNat_ofNat]
  omega

theorem beatAddr_zero {addr : BitVec 24} (h : addr.toNat % 4 = 0) : beatAddr addr 0 = addr := by
  apply BitVec.eq_of_toNat_eq
  rw [toNat_beatAddr]
  omega

/-! ### The drain (R172) -/

section Drain

variable {queue : List Posted} {w : Posted} {addrs : List (BitVec 24)}

theorem drainCount_of_unused (h : ∀ v ∈ queue, v.addr ∉ addrs) : drainCount queue addrs = 0 := by
  have hall : queue.reverse.takeWhile (fun v => !addrs.contains v.addr) = queue.reverse :=
    List.takeWhile_eq_self_iff.2 fun v hv => by simpa using h v (List.mem_reverse.1 hv)
  rw [drainCount, hall, List.length_reverse, Nat.sub_self]

/-- While a queued word is at an address of the transaction the oldest is written. -/
theorem drainCount_cons (h : ∃ v ∈ w :: queue, v.addr ∈ addrs) :
    drainCount (w :: queue) addrs = drainCount queue addrs + 1 := by
  have hstop : (queue.reverse ++ [w]).takeWhile (fun v => !addrs.contains v.addr) =
      queue.reverse.takeWhile (fun v => !addrs.contains v.addr) := by
    rw [List.takeWhile_append]
    split
    · next hall =>
      have hqueue : ∀ v ∈ queue, v.addr ∉ addrs := fun v hv => by
        have := List.takeWhile_eq_self_iff.1 ((List.takeWhile_prefix _).eq_of_length hall) v (List.mem_reverse.2 hv)
        simpa using this
      have hw : w.addr ∈ addrs := by
        obtain ⟨v, hv, hused⟩ := h
        obtain rfl | hv := List.mem_cons.1 hv
        · exact hused
        · exact absurd hused (hqueue v hv)
      rw [List.takeWhile_cons_of_neg (by simpa using hw), List.append_nil,
        (List.takeWhile_prefix _).eq_of_length hall]
    · rfl
  have hle := (List.takeWhile_prefix (l := queue.reverse) (fun v => !addrs.contains v.addr)).length_le
  rw [List.length_reverse] at hle
  rw [drainCount, drainCount, List.reverse_cons, hstop, List.length_cons]
  omega

/-- A word that joins behind at an address the transaction does not use changes nothing. -/
theorem drainCount_append_unused (h : w.addr ∉ addrs) : drainCount (queue ++ [w]) addrs = drainCount queue addrs := by
  rw [drainCount, drainCount, List.reverse_append, List.reverse_singleton, List.singleton_append,
    List.takeWhile_cons_of_pos (by simpa using h), List.length_cons, List.length_append, List.length_singleton,
    Nat.add_sub_add_right]

/-- The words up to and including the newest one at an address of the transaction are drained. -/
theorem drainCount_append_cons {pre : List Posted} (hw : w.addr ∈ addrs) (h : ∀ v ∈ queue, v.addr ∉ addrs) :
    drainCount (pre ++ w :: queue) addrs = pre.length + 1 := by
  induction pre with
  | nil => rw [List.nil_append, drainCount_cons ⟨w, List.mem_cons_self, hw⟩, drainCount_of_unused h, List.length_nil]
  | cons v pre ih => rw [List.cons_append, drainCount_cons ⟨w, by simp, hw⟩, ih, List.length_cons]

end Drain

/-! ### Taking a transaction up (R164, R172, R173) -/

section TakeUp

variable {s u : State} {x : Transaction}

theorem State.finishPort_of_free (h : s.path.port = none) : s.finishPort = s := by
  simp [State.finishPort, h]

theorem MemPath.fairnessCalls_iff {m : MemPath} : m.fairnessCalls = true ↔ 8 ≤ m.queue.length ∧ m.fairness = 8 := by
  simp [MemPath.fairnessCalls]

theorem State.fairnessWord_of_not (h : ¬ (8 ≤ s.path.queue.length ∧ s.path.fairness = 8)) : s.fairnessWord = s :=
  if_neg (MemPath.fairnessCalls_iff.not.2 h)

/-- On a free port the drain is all that comes before the issue, if the fairness rule calls for no word. -/
theorem State.takeUp_of_drain (hport : s.path.port = none) (hfair : ¬ (8 ≤ s.path.queue.length ∧ s.path.fairness = 8)) :
    s.takeUp x = (s.writePartWords (drainCount s.path.queue (beatAddrs x))).issue x := by
  rw [State.takeUp, State.finishPort_of_free hport, State.fairnessWord_of_not hfair, State.drain]

/-- A transaction that calls for no drain either is issued at once. -/
theorem State.takeUp_of_ready (hport : s.path.port = none) (hfair : ¬ (8 ≤ s.path.queue.length ∧ s.path.fairness = 8))
    (hdrain : ∀ w ∈ s.path.queue, w.addr ∉ beatAddrs x) : s.takeUp x = s.issue x := by
  rw [State.takeUp_of_drain hport hfair, drainCount_of_unused hdrain]
  rfl

/-- What the port is at ends first. -/
theorem State.takeUp_of_finishPort (hu : s.finishPort = u) (hport : u.path.port = none) : s.takeUp x = u.takeUp x := by
  rw [State.takeUp, State.takeUp, hu, State.finishPort_of_free hport]

theorem State.carryOn_port_of_last {passed count : Nat} (h : x.beats.length ≤ passed + count) :
    (s.carryOn x passed count).path.port = none := by
  simp [State.carryOn, h]

end TakeUp

/-! ### Words that producers post (R171) -/

section Posts

variable (s : State)

theorem State.postStatus_queue :
    s.postStatus.path.queue = s.path.queue ∨ ∃ z, s.postStatus.path.queue = s.path.queue ++ [z] := by
  cases hd : s.part.dirty with
  | nil => exact .inl (by rw [State.postStatus_of_clean hd])
  | cons w rest => exact .inr ⟨_, by rw [State.postStatus_of_dirty hd, State.post_queue]⟩

theorem State.postRecord_queue :
    s.postRecord.path.queue = s.path.queue ∨ ∃ z, s.postRecord.path.queue = s.path.queue ++ [z] := by
  cases ho : s.part.recorder.inProgress with
  | none => exact .inl (by rw [State.postRecord_of_none ho])
  | some o =>
    obtain hn | hn := Nat.lt_or_ge o.next 16
    · exact .inr ⟨_, by rw [State.postRecord_of_word ho hn, State.post_queue]⟩
    · exact .inr ⟨_, by rw [State.postRecord_of_index ho hn, State.post_queue]⟩

theorem State.offerPlace_queue :
    s.offerPlace.path.queue = s.path.queue ∨ ∃ z, s.offerPlace.path.queue = s.path.queue ++ [z] := by
  unfold State.offerPlace
  split
  · exact s.postStatus_queue
  · exact s.postRecord_queue
  · exact .inl rfl

end Posts

/-! ### Part words in the RAM -/

/-- The RAM after part words, the oldest first. -/
def Memory.writeWords (m : Memory) (ws : List Posted) : Memory := ws.foldl (fun m w => m.writeWord w.addr 0xF w.data) m

theorem Memory.wf_writeWords {m : Memory} (h : m.wf = true) (ws : List Posted) : (m.writeWords ws).wf = true := by
  induction ws generalizing m with
  | nil => exact h
  | cons w ws ih => exact ih (Memory.wf_writeWord _ _ _ h)

/-- The newest of the words stands whole. -/
theorem Memory.readWord_writeWords {m : Memory} (h : m.wf = true) (ws : List Posted) (w : Posted) :
    (m.writeWords (ws ++ [w])).readWord w.addr = w.data := by
  rw [Memory.writeWords, List.foldl_append]
  exact Memory.readWord_writeWord w.addr w.data (Memory.wf_writeWords h ws)

/-! ### The oldest part word, written (R171 to R173) -/

section Oldest

variable {s : State} {w : Posted} {rest : List Posted}

/-- The oldest part word goes to the free port and completes. -/
def State.oldestWritten (s : State) : State := s.startPartWord.completePartWord

theorem State.writePartWords_succ (n : Nat) : s.writePartWords (n + 1) = s.oldestWritten.writePartWords n := rfl

variable (hport : s.path.port = none) (hqueue : s.path.queue = w :: rest)
include hport hqueue

theorem State.oldestWritten_port : s.oldestWritten.path.port = none := by
  rw [State.oldestWritten, State.startPartWord_of_free hport hqueue]
  exact State.completePartWord_port rfl

theorem State.oldestWritten_fairness : s.oldestWritten.path.fairness = 0 := by
  rw [State.oldestWritten, State.startPartWord_of_free hport hqueue]
  exact State.completePartWord_fairness _

/-- With a place free throughout, the word is written and nobody is offered one. -/
theorem State.oldestWritten_of_place (hplace : rest.length < 15) : s.oldestWritten =
    { s with path.queue := rest, path.fairness := 0, path.ram := s.path.ram.writeWord w.addr 0xF w.data } := by
  rw [State.oldestWritten, State.startPartWord_of_free hport hqueue, State.completePartWord_of_place rfl hplace,
    State.partWordWritten, ← hport]

/-- A word that takes the freed place stands behind the fifteen or more that were left. -/
theorem State.oldestWritten_queue :
    s.oldestWritten.path.queue = rest ∨ 15 ≤ rest.length ∧ ∃ z, s.oldestWritten.path.queue = rest ++ [z] := by
  obtain hplace | hfull := Nat.lt_or_ge rest.length 15
  · exact .inl (by rw [State.oldestWritten_of_place hport hqueue hplace])
  · rw [State.oldestWritten, State.startPartWord_of_free hport hqueue, State.completePartWord_of_full rfl hfull]
    exact (State.offerPlace_queue _).imp_right fun h => ⟨hfull, h⟩

/-- The drain goes on from the state in which the oldest word is written, if no word that takes a freed place is at an address of
the transaction. -/
theorem State.drainCount_oldestWritten {addrs : List (BitVec 24)} (hused : ∃ v ∈ s.path.queue, v.addr ∈ addrs)
    (hnew : ∀ v ∈ s.oldestWritten.path.queue.drop 15, v.addr ∉ addrs) :
    drainCount s.path.queue addrs = drainCount s.oldestWritten.path.queue addrs + 1 := by
  rw [hqueue] at hused ⊢
  rw [drainCount_cons hused]
  obtain hrest | ⟨hfull, z, hz⟩ := State.oldestWritten_queue hport hqueue
  · rw [hrest]
  · rw [hz] at hnew ⊢
    rw [List.drop_append_of_le_length hfull] at hnew
    rw [drainCount_append_unused (hnew z (by simp))]

end Oldest

/-- The words before `post`, written one after another with places free throughout. -/
theorem State.writePartWords_of_place {s : State} {pre post : List Posted} (hport : s.path.port = none)
    (hqueue : s.path.queue = pre ++ post) (hplace : s.path.queue.length ≤ 15) :
    s.writePartWords pre.length =
      { s with
        path.queue := post
        path.fairness := if pre = [] then s.path.fairness else 0
        path.ram := s.path.ram.writeWords pre } := by
  induction pre generalizing s with
  | nil =>
    rw [List.nil_append] at hqueue
    rw [← hqueue]
    rfl
  | cons w pre ih =>
    have hrest : (pre ++ post).length < 15 := by
      rw [hqueue] at hplace
      simpa using hplace
    have hwritten := State.oldestWritten_of_place hport hqueue hrest
    rw [List.length_cons, State.writePartWords_succ, hwritten, ih (by exact hport) rfl (by exact hrest.le)]
    simp [Memory.writeWords]

end Sys2Proof.Machine

/-! ## The memory path: the beats of an upstream transaction -/

namespace Sys2Proof.Machine

/-! ### Beats, one after another (R164, R168) -/

section Beats

variable (x : Transaction) (bs : List Beat)

/-- The RAM after write beats, `k` the number of the first. -/
def Memory.writeBeats (start : BitVec 24) (m : Memory) (bs : List Beat) (k : Nat) : Memory :=
  (bs.zipIdx k).foldl (fun m b => m.writeWord (beatAddr start b.2) b.1.enables b.1.data) m

/-- Write beats go to the RAM and are handed over in order. -/
theorem State.carryBeats_write (hx : x.write = true) (s : State) (k : Nat) : s.carryBeats x bs k =
    { s with
      path.ram := s.path.ram.writeBeats x.start bs k
      part := (bs.zipIdx k).foldl (fun p b =>
        p.writeBeat s.path.base (beatAddr x.start b.2) b.1.enables b.1.data) s.part } := by
  induction bs generalizing s k with
  | nil => rfl
  | cons b bs ih => rw [State.carryBeats, ih, State.carryBeat, if_pos hx]; rfl

/-- Read beats bring back the words of the RAM and are handed over in order. -/
theorem State.carryBeats_read (hx : x.write = false) (s : State) (k : Nat) : s.carryBeats x bs k =
    { s with
      path.lineData := s.path.lineData ++ (bs.zipIdx k).map (fun b => s.path.ram.readWord (beatAddr x.start b.2))
      part := (bs.zipIdx k).foldl (fun p b =>
        p.readBeat (beatAddr x.start b.2) b.1.enables (s.path.ram.readWord (beatAddr x.start b.2))) s.part } := by
  induction bs generalizing s k with
  | nil => simp [State.carryBeats]
  | cons b bs ih =>
    rw [State.carryBeats, ih, State.carryBeat, if_neg (by simp [hx])]
    simp [State.carryRead]

theorem State.carryBeats_append (cs : List Beat) (s : State) (k : Nat) :
    s.carryBeats x (bs ++ cs) k = (s.carryBeats x bs k).carryBeats x cs (k + bs.length) := by
  induction bs generalizing s k with
  | nil => rfl
  | cons b bs ih =>
    rw [List.cons_append, State.carryBeats, ih, List.length_cons, Nat.add_right_comm, Nat.add_assoc]
    rfl

/-- What the port is at is nothing to the beats. -/
theorem State.carryBeats_setPort (port : Option PortTxn) (s : State) (k : Nat) :
    ({ s with path.port := port } : State).carryBeats x bs k = { s.carryBeats x bs k with path.port := port } := by
  induction bs generalizing s k with
  | nil => rfl
  | cons b bs ih =>
    have hbeat : ({ s with path.port := port } : State).carryBeat x.write (beatAddr x.start k) b =
        { s.carryBeat x.write (beatAddr x.start k) b with path.port := port } := by
      unfold State.carryBeat
      split <;> rfl
    rw [State.carryBeats, hbeat, ih, State.carryBeats]

end Beats

/-! ### Beats left off and gone on with (log entry 7) -/

section CarryOn

variable (x : Transaction)

/-- What the port is at after so many beats of a transaction. -/
def portAfter (x : Transaction) (n : Nat) : Option PortTxn :=
  if n < x.beats.length then some (.upstream x n) else none

theorem State.carryOn_eq (s : State) (passed count : Nat) : s.carryOn x passed count =
    { s.carryBeats x ((x.beats.drop passed).take count) passed with path.port := portAfter x (passed + count) } := by
  unfold State.carryOn portAfter
  dsimp only
  split
  · next h => rw [if_neg h.not_gt]
  · next h => rw [if_pos (Nat.lt_of_not_le h)]

/-- Beats carried in two goes are carried as in one. -/
theorem State.carryOn_carryOn (s : State) {first : Nat} (hfirst : first ≤ x.beats.length) (count : Nat) :
    (s.carryOn x 0 first).carryOn x first count = s.carryOn x 0 (first + count) := by
  have hlength : (x.beats.take first).length = first := by simpa using hfirst
  have hbeats := State.carryBeats_append x (x.beats.take first) ((x.beats.drop first).take count) s 0
  rw [← List.take_add, hlength, Nat.zero_add] at hbeats
  rw [State.carryOn_eq, State.carryOn_eq, State.carryOn_eq, State.carryBeats_setPort, List.drop_zero, hbeats, Nat.zero_add,
    Nat.zero_add]

theorem add_beatsToPass {n left : Nat} (h : n ≤ left) (pause : Option Nat) :
    n + beatsToPass pause (left - n) = beatsToPass (pause.map (n + ·)) left := by
  cases pause with
  | none => simp [beatsToPass]; omega
  | some m => simp [beatsToPass]; omega

/-- A transaction left off stays on the port with the number of its beats that have passed. -/
theorem exec_upstream_goesOn {s : State} {n : Nat} (hport : s.path.port = some (.upstream x n)) (pause : Option Nat) :
    exec (.upstreamTransaction none pause) s = .next (s.carryOn x n (beatsToPass pause (x.beats.length - n))) := by
  simp [execUpstreamTransaction, State.upstream, hport]

theorem exec_upstream_resumed (n : Nat) (pause : Option Nat) (s t : State)
    (ht : exec (.upstreamTransaction (some x) (some n)) s = .next t) (hn : n < x.beats.length) :
    exec (.upstreamTransaction none pause) t = exec (.upstreamTransaction (some x) (pause.map (n + ·))) s := by
  have hwf : x.wellFormed = true := by
    by_contra hnot
    rw [exec_upstream, if_neg hnot] at ht
    cases ht
  rw [exec_upstream, if_pos hwf] at ht ⊢
  obtain rfl := Host.Outcome.next.inj ht
  have hcount : beatsToPass (some n) x.beats.length = n := Nat.min_eq_right hn.le
  have hport : ((s.takeUp x).carryOn x 0 n).path.port = some (.upstream x n) := by
    simp [State.carryOn_eq, portAfter, hn]
  rw [hcount, exec_upstream_goesOn x hport, State.carryOn_carryOn x _ hn.le, add_beatsToPass hn.le]

end CarryOn

/-! ### A whole transaction, from the issue on -/

section Issued

variable {x : Transaction} (s : State) {n : Nat}

theorem beatsToPass_le (pause : Option Nat) (left : Nat) : beatsToPass pause left ≤ left := by
  cases pause with
  | none => exact le_rfl
  | some m => exact Nat.min_le_left _ _

theorem State.carryOn_issue_write (hx : x.write = true) : (s.issue x).carryOn x 0 n =
    { s with
      path.port := portAfter x n
      path.fairness := min 8 (s.path.fairness + 1)
      path.ram := s.path.ram.writeBeats x.start (x.beats.take n) 0
      part := (x.beats.take n).zipIdx.foldl (fun p b =>
        p.writeBeat s.path.base (beatAddr x.start b.2) b.1.enables b.1.data) s.part } := by
  rw [State.carryOn_eq, State.carryBeats_write _ _ hx, List.drop_zero, Nat.zero_add, State.issue, if_pos hx]

theorem State.carryOn_issue_read (hx : x.write = false) (hn : n ≤ x.beats.length) : (s.issue x).carryOn x 0 n =
    { s with
      path.port := portAfter x n
      path.fairness := min 8 (s.path.fairness + 1)
      path.lineData := (List.range n).map (fun k => s.path.ram.readWord (beatAddr x.start k))
      part := (x.beats.take n).zipIdx.foldl (fun p b =>
        p.readBeat (beatAddr x.start b.2) b.1.enables (s.path.ram.readWord (beatAddr x.start b.2))) s.part } := by
  have hwords : (x.beats.take n).zipIdx.map (fun b => s.path.ram.readWord (beatAddr x.start b.2)) =
      (List.range n).map (fun k => s.path.ram.readWord (beatAddr x.start k)) := by
    have hnumbers : (x.beats.take n).zipIdx.map Prod.snd = List.range n := by
      rw [List.zipIdx_map_snd, List.length_take_of_le hn, List.range_eq_range']
    rw [← hnumbers, List.map_map]
    rfl
  rw [State.carryOn_eq, State.carryBeats_read _ _ hx, List.drop_zero, Nat.zero_add, State.issue, if_neg (by simp [hx])]
  simp only [List.nil_append, hwords]

end Issued

/-! ### The bytes of a burst -/

section Bytes

variable {start : BitVec 24} {m : Memory}

theorem Memory.wf_writeBeats (h : m.wf = true) (bs : List Beat) (k : Nat) : (m.writeBeats start bs k).wf = true := by
  induction bs generalizing m k with
  | nil => exact h
  | cons b bs ih => exact ih (Memory.wf_writeWord _ _ _ h) _

/-- The address of a lane of a beat: the word address has room for its lanes. -/
theorem laneAddr_beatAddr (start : BitVec 24) (k : Nat) {l : Nat} (hl : l < 4) :
    laneAddr (beatAddr start k) l = start.toNat / 32 * 32 + (start.toNat / 4 + k) % 8 * 4 + l := by
  have hstart := start.isLt
  rw [laneAddr, BitVec.toNat_add, toNat_beatAddr, BitVec.toNat_ofNat]
  omega

/-- The beats of a burst have different addresses. -/
theorem laneAddr_beatAddr_ne (start : BitVec 24) {j k i l : Nat} (hj : j < 8) (hk : k < 8) (hne : j ≠ k) (hi : i < 4)
    (hl : l < 4) : laneAddr (beatAddr start j) i ≠ laneAddr (beatAddr start k) l := by
  rw [laneAddr_beatAddr start j hi, laneAddr_beatAddr start k hl]
  omega

/-- A byte that no enabled lane of a beat is at is as before. -/
theorem Memory.read_writeBeats_of_ne (h : m.wf = true) {bs : List Beat} {k a : Nat}
    (ha : ∀ j b l, bs[j]? = some b → l < 4 → b.enables.getLsbD l = true → laneAddr (beatAddr start (k + j)) l ≠ a) :
    (m.writeBeats start bs k).read a = m.read a := by
  induction bs generalizing m k with
  | nil => rfl
  | cons b bs ih =>
    have hfirst := Memory.read_writeWord_of_ne (w := b.data) h fun l hl hen => ha 0 b l rfl hl hen
    refine (ih (Memory.wf_writeWord _ _ _ h) fun j c l hj hl hen => ?_).trans hfirst
    have hnext := ha (j + 1) c l hj hl hen
    rwa [Nat.add_comm j 1, ← Nat.add_assoc] at hnext

/-- An enabled lane of a beat of a burst stands at its address, no later beat at the same. -/
theorem Memory.read_writeBeats_lane (h : m.wf = true) {bs : List Beat} {k j l : Nat} {b : Beat} (hlen : k + bs.length ≤ 8)
    (hj : bs[j]? = some b) (hl : l < 4) (hen : b.enables.getLsbD l = true) :
    (m.writeBeats start bs k).read (laneAddr (beatAddr start (k + j)) l) = laneByte b.data l := by
  induction bs generalizing m k j with
  | nil => simp at hj
  | cons c bs ih =>
    have hwf := Memory.wf_writeWord (beatAddr start k) c.enables c.data h
    rw [List.length_cons] at hlen
    cases j with
    | zero =>
      obtain rfl : c = b := Option.some.inj hj
      have hlater := Memory.read_writeBeats_of_ne (start := start) hwf (bs := bs) (k := k + 1)
        (a := laneAddr (beatAddr start k) l) fun i d r hi hr _ =>
          laneAddr_beatAddr_ne start (by have := (List.getElem?_eq_some_iff.1 hi).1; omega) (by omega) (by omega) hr hl
      exact hlater.trans (Memory.read_writeWord_lane h hl hen)
    | succ j =>
      have hrest := ih hwf (k := k + 1) (j := j) (by omega) hj
      rwa [Nat.add_assoc, Nat.add_comm 1 j] at hrest

end Bytes

/-! ### The hand-over of a beat (R168, R169) -/

section HandOver

variable (s : State) (en : Lanes) (data : Word)

/-- A state with a beat's share of row intake taken. -/
def State.rowHandedOver (s : State) (addr : BitVec 24) (en : Lanes) (data : Word) : State :=
  s.onPart fun p => p.rowRingBeat addr.toNat en data

/-- A state with a beat checked against the mark windows. -/
def State.marksHandedOver (s : State) (write : Bool) (addr : BitVec 24) (en : Lanes) (data : Word) : State :=
  s.onPart fun p => p.markBeat write (wordNumber addr) en data

/-- A state with a write beat's share of the setup page taken. -/
def State.pageHandedOver (s : State) (addr : BitVec 24) (en : Lanes) (data : Word) : State :=
  s.onPart fun p =>
    if inPage s.path.base addr.toNat then p.pageBeat ((addr.toNat - s.path.base) / 4) en data else p

variable {en} {addr : BitVec 24}

theorem State.writeBeat_eq_handedOver (hen : en ≠ 0) :
    { s with part := s.part.writeBeat s.path.base addr en data } =
      ((s.rowHandedOver addr en data).marksHandedOver true addr en data).pageHandedOver addr en data := by
  rw [Part.writeBeat, if_neg hen]
  rfl

theorem inPage_iff {base a : Nat} : inPage base a = true ↔ base ≤ a ∧ a < base + 512 := by
  simp [inPage]

theorem Guarded.inRowRing_iff {g : Guarded} {a : Nat} :
    g.inRowRing a = true ↔ g.rowRingBase ≤ a ∧ a < g.rowRingBase + 256 * g.slotCount := by
  simp [Guarded.inRowRing]

theorem exec_headerWrite_of_inRing (hring : s.part.setup.guarded.inRowRing addr.toNat = true)
    (hoffset : s.part.setup.guarded.offsetOf addr.toNat = 0) :
    exec (.headerWrite (s.part.setup.guarded.slotOf addr.toNat) en data) s = .next (s.rowHandedOver addr en data) := by
  simp only [State.rowHandedOver, State.onPart, Part.rowRingBeat, if_pos hring, Part.rowSlotBeat, if_pos hoffset]
  rfl

theorem exec_beamWordWrite_of_inRing (hring : s.part.setup.guarded.inRowRing addr.toNat = true)
    (hoffset : s.part.setup.guarded.offsetOf addr.toNat ≠ 0) :
    exec (.beamWordWrite (s.part.setup.guarded.slotOf addr.toNat) (s.part.setup.guarded.offsetOf addr.toNat) en data) s =
      .next (s.rowHandedOver addr en data) := by
  simp only [State.rowHandedOver, State.onPart, Part.rowRingBeat, if_pos hring, Part.rowSlotBeat, if_neg hoffset]
  rfl

theorem State.rowHandedOver_of_outside (hring : ¬ s.part.setup.guarded.inRowRing addr.toNat = true) :
    s.rowHandedOver addr en data = s :=
  State.onPart_of_eq (by simp [Part.rowRingBeat, hring])

theorem State.pageHandedOver_of_outside (hpage : ¬ inPage s.path.base addr.toNat = true) :
    s.pageHandedOver addr en data = s :=
  State.onPart_of_eq (if_neg hpage)

variable {word : Nat} (hpage : inPage s.path.base addr.toNat = true) (hword : (addr.toNat - s.path.base) / 4 = word)
include hpage hword

theorem State.pageHandedOver_of_inPage : s.pageHandedOver addr en data = s.onPart fun p => p.pageBeat word en data := by
  simp only [State.pageHandedOver, if_pos hpage, hword]

theorem exec_consumerIndexWrite_of_inPage (h76 : word = 76) :
    exec (.consumerIndexWrite en data) s = .next (s.pageHandedOver addr en data) := by
  rw [State.pageHandedOver_of_inPage s data hpage hword, h76]
  rfl

theorem exec_setupWordWrite_of_inPage (hlow : word < 80) (h76 : word ≠ 76) :
    exec (.setupWordWrite (BitVec.ofNat 7 word) en data) s = .next (s.pageHandedOver addr en data) := by
  have hnat : (BitVec.ofNat 7 word).toNat = word := by
    rw [BitVec.toNat_ofNat]
    omega
  rw [exec_setupWordWrite_of_lt (by rwa [hnat]), hnat, State.pageHandedOver_of_inPage s data hpage hword]
  simp only [Part.pageBeat, if_neg h76, if_pos hlow]

theorem exec_statusBlockWrite_of_inPage (hhigh : 80 ≤ word) :
    exec (.statusBlockWrite (BitVec.ofNat 6 (word - 80))) s = .next (s.pageHandedOver addr en data) := by
  have hlt : word - 80 < 48 := by
    obtain ⟨-, hbelow⟩ := inPage_iff.1 hpage
    omega
  have hnat : (BitVec.ofNat 6 (word - 80)).toNat = word - 80 := by
    rw [BitVec.toNat_ofNat]
    omega
  rw [exec_statusBlockWrite_of_lt (by rwa [hnat]), hnat, State.pageHandedOver_of_inPage s data hpage hword]
  simp only [Part.pageBeat, if_neg (by omega : ¬ word = 76), if_neg hhigh.not_gt]
  rfl

end HandOver

/-- Settles O52: the beats as one fold over the RAM and one over the part, the resumption by the beats appended, and the hand-over
block by block. -/
theorem upstreamWrite : Obligations.UpstreamWrite := by
  refine ⟨fun x pause s hone height hport hfair hdrain => ?carried, exec_upstream_resumed, toNat_beatAddr,
    fun s addr en data => ⟨fun hen => ⟨if_pos hen, if_pos hen⟩, fun hen => ?handedOver⟩⟩
  case carried =>
    intro n port
    have hn : n = beatsToPass pause x.beats.length := by cases pause <;> rfl
    have hle : n ≤ x.beats.length := hn ▸ beatsToPass_le pause _
    have htaken : s.takeUp x = s.issue x := by
      refine State.takeUp_of_ready hport (not_and.2 hfair) fun w hw hused => ?_
      obtain ⟨k, hk, hat⟩ := mem_beatAddrs.1 hused
      exact hdrain w hw k hk hat
    have hexec : exec (.upstreamTransaction (some x) pause) s = .next ((s.issue x).carryOn x 0 n) := by
      rw [exec_upstream, if_pos (Transaction.wellFormed_iff.2 ⟨hone, height⟩), htaken, hn]
    have hlength : (x.beats.take n).length = n := List.length_take_of_le hle
    refine ⟨fun hx hram => ?write, fun hx => ?read⟩
    case write =>
      rw [State.carryOn_issue_write s hx] at hexec
      refine ⟨_, hexec, rfl, rfl, rfl, rfl, rfl, rfl, rfl, rfl, fun k b l hk hb hl hen => ?lane, fun a ha => ?byte⟩
      case lane =>
        have hlane := Memory.read_writeBeats_lane (start := x.start) hram (bs := x.beats.take n) (k := 0) (j := k) (by omega)
          (by rwa [List.getElem?_take_of_lt hk]) hl hen
        rwa [Nat.zero_add] at hlane
      case byte =>
        refine Memory.read_writeBeats_of_ne hram fun k b l hb hl hen => ?_
        have hk : k < n := by
          have := (List.getElem?_eq_some_iff.1 hb).1
          omega
        rw [List.getElem?_take_of_lt hk] at hb
        rw [Nat.zero_add]
        exact ha k b l hk hb hl hen
    case read =>
      rw [State.carryOn_issue_read s hx hle] at hexec
      exact ⟨_, hexec, rfl, rfl, rfl⟩
  case handedOver =>
    intro a ring slot offset inRing inPage' word
    have hread : s.part.readBeat addr en data = s.part.markBeat false (wordNumber addr) en data := if_neg hen
    refine ⟨by rw [hread]; rfl, s.rowHandedOver addr en data,
      (s.rowHandedOver addr en data).marksHandedOver true addr en data, _,
      fun hring => exec_headerWrite_of_inRing s data (Guarded.inRowRing_iff.2 hring),
      fun hring => exec_beamWordWrite_of_inRing s data (Guarded.inRowRing_iff.2 hring),
      fun hring => State.rowHandedOver_of_outside s data (Guarded.inRowRing_iff.not.2 hring), rfl,
      fun hpage => exec_consumerIndexWrite_of_inPage _ data (inPage_iff.2 hpage) rfl,
      fun hpage => exec_setupWordWrite_of_inPage _ data (inPage_iff.2 hpage) rfl,
      fun hpage => exec_statusBlockWrite_of_inPage _ data (inPage_iff.2 hpage) rfl,
      fun hpage => State.pageHandedOver_of_outside _ data (inPage_iff.not.2 hpage), s.writeBeat_eq_handedOver data hen⟩

end Sys2Proof.Machine

/-! ## The memory path: a read of the newest part word -/

namespace Sys2Proof.Machine

/-- Settles O53: the port's end, the fairness word and the drain word by word; then the read of a word that waits. -/
theorem readReturnsTheNewestPartWord : Obligations.ReadReturnsTheNewestPartWord := by
  refine ⟨fun x pause s => ?before, fun addr en d s pre post w hram hport hqueue hplace halign hw hpost => ?newest⟩
  case before =>
    intro go uses
    have huses (w : Posted) : w.addr ∈ beatAddrs x ↔ uses w := mem_beatAddrs
    refine ⟨fun w u hport hu => ?partWord, fun y k u hport hu => ?upstream, fun u v hport hu hv => ?oldest⟩
    case partWord =>
      obtain rfl := Host.Outcome.next.inj hu
      refine exec_upstream_congr (State.takeUp_of_finishPort ?_ (State.completePartWord_port hport)) pause
      simp [State.finishPort, hport]
    case upstream =>
      obtain rfl := Host.Outcome.next.inj hu
      have hrest : s.finishPort = s.upstream none none := by
        simp [State.finishPort, State.upstream, beatsToPass, hport]
      refine exec_upstream_congr (State.takeUp_of_finishPort hrest ?_) pause
      simp only [State.upstream, hport]
      exact State.carryOn_port_of_last (by simp [beatsToPass]; omega)
    case oldest =>
      obtain rfl := Host.Outcome.next.inj hu
      obtain rfl : s.oldestWritten = v := Host.Outcome.next.inj hv
      refine ⟨fun hlen hfair => ?fairness, fun hfair hused hnew => ?drain⟩
      case fairness =>
        obtain ⟨w, rest, hqueue⟩ := List.exists_cons_of_length_pos (by omega : 0 < s.path.queue.length)
        have hfree := State.oldestWritten_port hport hqueue
        have hword : s.fairnessWord = s.oldestWritten := if_pos (MemPath.fairnessCalls_iff.2 ⟨hlen, hfair⟩)
        have hnot : s.oldestWritten.fairnessWord = s.oldestWritten :=
          State.fairnessWord_of_not (by simp [State.oldestWritten_fairness hport hqueue])
        refine exec_upstream_congr ?_ pause
        rw [State.takeUp, State.takeUp, State.finishPort_of_free hport, State.finishPort_of_free hfree, hword, hnot]
      case drain =>
        obtain ⟨w, hmem, hw⟩ := hused
        obtain ⟨v, rest, hqueue⟩ := List.exists_cons_of_ne_nil (List.ne_nil_of_mem hmem)
        have hfree := State.oldestWritten_port hport hqueue
        have hnot : ¬ (8 ≤ s.oldestWritten.path.queue.length ∧ s.oldestWritten.path.fairness = 8) := by
          simp [State.oldestWritten_fairness hport hqueue]
        refine exec_upstream_congr ?_ pause
        rw [State.takeUp_of_drain hport (not_and.2 hfair), State.takeUp_of_drain hfree hnot,
          State.drainCount_oldestWritten hport hqueue ⟨w, hmem, (huses w).2 hw⟩ fun v hv => (huses v).not.2 (hnew v hv),
          State.writePartWords_succ]
  case newest =>
    intro x
    have haddrs : beatAddrs x = [addr] := by simp [beatAddrs, x, beatAddr_zero halign]
    have hcount : drainCount s.path.queue (beatAddrs x) = (pre ++ [w]).length := by
      rw [hqueue, haddrs, drainCount_append_cons (by simp [hw]) fun v hv => by simpa using hpost v hv]
      simp
    have hdrained := State.writePartWords_of_place (pre := pre ++ [w]) (post := post) hport (by simp [hqueue]) (by omega)
    have htaken : s.takeUp x = _ := State.takeUp_of_drain hport (by omega)
    have hexec : exec (.upstreamTransaction (some x) none) s = .next ((s.takeUp x).carryOn x 0 1) := rfl
    have hread : (s.path.ram.writeWords (pre ++ [w])).readWord addr = w.data := by
      rw [← hw]
      exact Memory.readWord_writeWords hram pre w
    rw [hcount, hdrained] at htaken
    rw [htaken, State.carryOn_issue_read (x := x) (n := 1) _ rfl le_rfl] at hexec
    refine ⟨_, hexec, rfl, rfl, ?_, ?_, hread⟩
    · simp [x, beatAddr_zero halign, hread]
    · simp

end Sys2Proof.Machine

/-! ## The words of each record (11.5) -/

namespace Sys2Proof.Machine

/-! ### Values that fit their fields -/

theorem field_zero_ofNat (n : Nat) : field 0 n = BitVec.ofNat 32 n := by simp [field]

/-- Two 16-bit values share a word, the first in the lower half. -/
theorem field_halves {low high : Nat} (hlow : low < 65536) (hhigh : high < 65536) :
    field 0 low ||| field 16 high = BitVec.ofNat 16 high ++ BitVec.ofNat 16 low := by
  rw [eq_field (_ ++ _), field_append]
  simp [Nat.mod_eq_of_lt hlow, Nat.mod_eq_of_lt hhigh]

theorem field_lowHalf {low : Nat} (hlow : low < 65536) : field 0 low = (0 : Half) ++ BitVec.ofNat 16 low := by
  simpa using field_halves hlow (high := 0) (by decide)

/-! ### The codes as bits -/

/-- The sources as 11.5 codes them. -/
def Source.bits : Source → BitVec 4
  | .belt => 0
  | .spill => 1
  | .manual => 2

/-- The grades as 11.5 codes them. -/
def Grade.bits : Grade → BitVec 4
  | .band k => BitVec.ofNat 4 k
  | .ungraded => 8
  | .small => 9
  | .oversize => 10
  | .review => 11

/-- The lower half of HIDE word 8: wheels 1 to 4, or all of them unused. -/
def wheelBits : Option Symbols → Half
  | none => 0xFFFF
  | some y => BitVec.ofNat 4 y.w4 ++ BitVec.ofNat 4 y.w3 ++ BitVec.ofNat 4 y.w2 ++ BitVec.ofNat 4 y.w1

/-- Class and reason of an outcome as HIDE word 12 carries them. -/
def StampOutcome.bits : StampOutcome → Byte
  | .stamped => 0x00
  | .missed .passed => 0x01
  | .missed .notReady => 0x11
  | .missed .headFault => 0x21
  | .missed .restart => 0x31
  | .unstamped .review => 0x02
  | .unstamped .small => 0x12
  | .unstamped .oversize => 0x22
  | .unstamped .bandOff => 0x32
  | .unstamped .stampOff => 0x42
  | .unstamped .headFault => 0x52
  | .unstamped .noSite => 0x62
  | .unstamped .lateClose => 0x72
  | .unstamped .queueFull => 0x82
  | .unstamped .truncated => 0x92
  | .unstamped .manual => 0xA2

/-- The event kinds as 11.5 codes them. -/
def EventKind.bits : EventKind → Byte
  | .rowIncomplete => 1
  | .rowOverrun => 2
  | .beltGap => 3
  | .beamStuck => 4
  | .hideTableFull => 5
  | .holeTableFull => 6
  | .fragmentRow => 7
  | .headFault => 8
  | .commitApplied => 9

/-- The fault codes as the argument of a HEAD_FAULT event carries them. -/
def FaultCode.bits : FaultCode → BitVec 3
  | .module _ => 0
  | .absent => 1
  | .parity => 2
  | .mismatch => 3
  | .count => 4
  | .noStrike => 5

/-- The module's own code in a HEAD_FAULT argument, 0 for a fault that no module reports. -/
def FaultCode.moduleBits : FaultCode → BitVec 12
  | .module m => m
  | .absent | .parity | .mismatch | .count | .noStrike => 0

theorem Source.toNat_bits (s : Source) : s.code = s.bits.toNat := by cases s <;> rfl

theorem EventKind.toNat_bits (k : EventKind) : k.code = k.bits.toNat := by cases k <;> rfl

theorem FaultCode.toNat_bits (c : FaultCode) : c.code = c.bits.toNat := by cases c <;> rfl

theorem Grade.toNat_bits {g : Grade} (h : ∀ k, g = .band k → k < 8) : g.code = g.bits.toNat := by
  cases g with
  | band k =>
    have hk : k < 2 ^ 4 := (h k rfl).trans (by decide)
    exact (BitVec.toNat_ofNat k 4 ▸ Nat.mod_eq_of_lt hk).symm
  | ungraded | small | oversize | review => rfl

theorem StampOutcome.field_bits (o : StampOutcome) : field 0 o.cls ||| field 4 o.reason = field 0 o.bits.toNat := by
  cases o with
  | stamped => rfl
  | missed r => cases r <;> rfl
  | unstamped r => cases r <;> rfl

/-! ### HIDE words -/

section HideWords

variable {x : HideInfo} {y : Option Symbols}

/-- HIDE word 0 for a grade that fits its field. -/
theorem hideWord_kind (h : ∀ k, x.grade = .band k → k < 8) :
    field 0 1 ||| field 8 x.source.code ||| field 12 x.grade.code ||| field 16 x.number.toNat =
      x.number ++ x.grade.bits ++ x.source.bits ++ (1 : Byte) := by
  rw [eq_field (_ ++ _), field_append, field_append, field_append]
  simp [Source.toNat_bits, Grade.toNat_bits h, BitVec.or_assoc]

theorem symbolsWord_eq (h : ∀ s, y = some s → s.w1 < 16 ∧ s.w2 < 16 ∧ s.w3 < 16 ∧ s.w4 < 16) :
    symbolsWord y = (0 : Half) ++ wheelBits y := by
  cases y with
  | none => rfl
  | some s =>
    obtain ⟨h1, h2, h3, h4⟩ := h s rfl
    rw [wheelBits, eq_field (_ ++ _), field_append, field_append, field_append, field_append]
    simp [symbolsWord, Nat.mod_eq_of_lt, h1, h2, h3, h4, BitVec.or_assoc]

theorem HideFlags.word_eq (f : HideFlags) :
    let bit : Bool → BitVec 1 := BitVec.ofBool
    f.word = (0 : BitVec 23) ++ bit f.truncated ++ bit f.maskedBeams ++ bit f.edge ++ bit f.gapRows ++ bit f.holeLimit ++
      bit f.noisy ++ bit f.fragment ++ bit f.spillJoined ++ bit f.double := by
  intro bit
  rw [eq_field (_ ++ _)]
  iterate 9 rw [field_append]
  simp [HideFlags.word, bitField_eq, bit, BitVec.or_assoc]

/-- HIDE word 12. -/
theorem hideWord_outcome (o : StampOutcome) (site strike : Bool) :
    field 0 o.cls ||| field 4 o.reason ||| bitField 8 site ||| bitField 9 strike =
      (0 : BitVec 22) ++ BitVec.ofBool strike ++ BitVec.ofBool site ++ o.bits := by
  rw [eq_field (_ ++ _), field_append, field_append, field_append, o.field_bits]
  simp [bitField_eq, BitVec.or_assoc]

end HideWords

/-! ### The first words of LOT, MARK and EVENT, and the argument of HEAD_FAULT -/

theorem lotWord_kind (l : Lot) :
    field 0 2 ||| bitField 8 l.calChanged ||| bitField 9 l.recordsDropped ||| bitField 10 l.packAuto ||| field 16 l.id.toNat =
      l.id ++ (0 : BitVec 5) ++ BitVec.ofBool l.packAuto ++ BitVec.ofBool l.recordsDropped ++ BitVec.ofBool l.calChanged ++
        (2 : Byte) := by
  rw [eq_field (_ ++ _), field_append, field_append, field_append, field_append, field_append]
  simp [bitField_eq, BitVec.or_assoc]

theorem markWord_kind {window : Nat} (h : window < 4) (bound : Option Half) (ambiguous : Bool) :
    field 0 3 ||| field 8 window ||| bitField 12 bound.isSome ||| bitField 13 ambiguous ||| field 16 (bound.getD 0).toNat =
      bound.getD 0 ++ (0 : BitVec 2) ++ BitVec.ofBool ambiguous ++ BitVec.ofBool bound.isSome ++ BitVec.ofNat 4 window ++
        (3 : Byte) := by
  have hwindow : window % 16 = window := Nat.mod_eq_of_lt (h.trans (by decide))
  rw [eq_field (_ ++ _), field_append, field_append, field_append, field_append, field_append]
  simp [hwindow, bitField_eq, BitVec.or_assoc]

theorem eventWord_kind (k : EventKind) : field 0 4 ||| field 8 k.code = (0 : Half) ++ k.bits ++ (4 : Byte) := by
  rw [eq_field (_ ++ _), field_append, field_append]
  simp [EventKind.toNat_bits]

/-- The fields of a HEAD_FAULT argument (11.5). -/
theorem headFaultArg_eq (slot : BitVec 3) (c : FaultCode) : headFaultArg slot.toNat c =
    (0 : BitVec 4) ++ c.moduleBits ++ (0 : BitVec 5) ++ c.bits ++ (0 : BitVec 5) ++ slot := by
  have hmodule : headFaultArg slot.toNat c = field 0 slot.toNat ||| field 8 c.bits.toNat ||| field 16 c.moduleBits.toNat := by
    rw [← c.toNat_bits]
    cases c with
    | module m => rfl
    | absent | parity | mismatch | count | noStrike => simp [headFaultArg, FaultCode.moduleBits]
  rw [hmodule, eq_field (_ ++ _), field_append, field_append, field_append, field_append, field_append]
  simp [BitVec.or_assoc]

/-! ### Records whole -/

/-- Every record has sixteen words. -/
theorem Record.words_length (r : Record) : r.words.length = 16 := by
  cases r with
  | hide | lot | mark | event => rfl

theorem Record.words_hide {x : HideInfo} {o : StampOutcome} {strike : Option Word}
    (hgrade : ∀ k, x.grade = .band k → k < 8)
    (hsymbols : ∀ s, x.symbols = some s → s.w1 < 16 ∧ s.w2 < 16 ∧ s.w3 < 16 ∧ s.w4 < 16)
    (hmerges : x.merges < 65536) (hmin : x.minCol < 65536) (hmax : x.maxCol < 65536) (hfilled : x.holesFilled < 65536)
    (hlarge : x.holesLarge < 65536) (hbreached : x.holesBreached < 65536) :
    let h16 : Nat → Half := BitVec.ofNat 16
    let bit : Bool → BitVec 1 := BitVec.ofBool
    let f := x.flags
    (Record.hide x o strike).words =
      [x.number ++ x.grade.bits ++ x.source.bits ++ (1 : Byte), h16 x.merges ++ x.lot, x.firstRow, x.lastRow,
       h16 x.maxCol ++ h16 x.minCol, BitVec.ofNat 32 x.covered, BitVec.ofNat 32 x.filled, BitVec.ofNat 32 x.units,
       (0 : Half) ++ wheelBits x.symbols, h16 x.holesLarge ++ h16 x.holesFilled, (0 : Half) ++ h16 x.holesBreached,
       (0 : BitVec 23) ++ bit f.truncated ++ bit f.maskedBeams ++ bit f.edge ++ bit f.gapRows ++ bit f.holeLimit ++
         bit f.noisy ++ bit f.fragment ++ bit f.spillJoined ++ bit f.double,
       (0 : BitVec 22) ++ bit strike.isSome ++ bit x.site.isSome ++ o.bits,
       x.site.elim 0 Site.row, x.site.elim 0 (fun y => BitVec.ofNat 32 y.col), strike.getD 0] := by
  intro h16 bit f
  have hlot : field 0 x.lot.toNat ||| field 16 x.merges = h16 x.merges ++ x.lot := by
    simpa using field_halves x.lot.isLt hmerges
  have hrow : (x.site.map Site.row).getD 0 = x.site.elim 0 Site.row := by cases x.site <;> rfl
  have hcol : field 0 ((x.site.map Site.col).getD 0) = x.site.elim 0 (fun y => BitVec.ofNat 32 y.col) := by
    cases x.site <;> simp [field_zero_ofNat]
  simp only [Record.words, hideWords, hideWord_kind hgrade, hlot, field_halves hmin hmax, symbolsWord_eq hsymbols,
    field_halves hfilled hlarge, field_lowHalf hbreached, HideFlags.word_eq, hideWord_outcome, hrow, hcol,
    field_zero_ofNat x.covered, field_zero_ofNat x.filled, field_zero_ofNat x.units, h16, bit, f]

/-- A count read from a list of bounded counts is bounded, also past its end. -/
theorem getD_lt_of_forall_mem {l : List Nat} {n : Nat} (h : ∀ b ∈ l, b < n) (hn : 0 < n) (k : Nat) : l.getD k 0 < n := by
  rw [List.getD_eq_getElem?_getD]
  rcases hk : l[k]? with - | b
  · exact hn
  · exact h b (List.mem_of_getElem? hk)

theorem Record.words_lot {l : Lot} (hfits : l.tally.fits) (hsmall : l.tally.small < 65536)
    (hoversize : l.tally.oversize < 65536) (hreview : l.tally.review < 65536) (hungraded : l.tally.ungraded < 65536)
    (hbands : ∀ b ∈ l.tally.bands, b < 65536) :
    let t := l.tally
    let h16 : Nat → Half := BitVec.ofNat 16
    let bit : Bool → BitVec 1 := BitVec.ofBool
    let band := fun k => h16 (t.bands.getD k 0)
    (Record.lot l).words =
      [l.id ++ (0 : BitVec 5) ++ bit l.packAuto ++ bit l.recordsDropped ++ bit l.calChanged ++ (2 : Byte), l.startRow,
       h16 t.births ++ h16 t.hides, BitVec.ofNat 32 t.totalUnits, h16 t.unstamped ++ h16 t.stamped,
       band 1 ++ band 0, band 3 ++ band 2, band 5 ++ band 4, band 7 ++ band 6, h16 t.oversize ++ h16 t.small,
       h16 t.ungraded ++ h16 t.review, h16 t.marks ++ h16 t.manual, 0, 0, 0, 0] := by
  intro t h16 bit band
  obtain ⟨hhides, hbirths, -, hstamped, hunstamped, hmanual, hmarks⟩ := hfits
  have hlt {n : Nat} (h : n ≤ l.tally.hides) : n < 65536 := Nat.lt_succ_of_le (h.trans hhides)
  have hband (j k : Nat) : field 0 (l.tally.bands.getD j 0) ||| field 16 (l.tally.bands.getD k 0) = band k ++ band j :=
    field_halves (getD_lt_of_forall_mem hbands (by decide) j) (getD_lt_of_forall_mem hbands (by decide) k)
  simp only [Record.words, lotWords, lotWord_kind, hband, field_halves (hlt le_rfl) (Nat.lt_succ_of_le hbirths),
    field_halves (hlt hstamped) (hlt hunstamped), field_halves hsmall hoversize, field_halves hreview hungraded,
    field_halves (hlt hmanual) (Nat.lt_succ_of_le hmarks), field_zero_ofNat l.tally.totalUnits, t, h16, bit]

theorem Record.words_mark {window : Nat} (h : window < 4) (data hitRow : Word) (bound : Option Half) (ambiguous : Bool)
    (lot : Half) : (Record.mark window data hitRow bound ambiguous lot).words =
      [bound.getD 0 ++ (0 : BitVec 2) ++ BitVec.ofBool ambiguous ++ BitVec.ofBool bound.isSome ++ BitVec.ofNat 4 window ++
        (3 : Byte), data, hitRow, (0 : Half) ++ lot] ++ List.replicate 12 0 := by
  have hlot : field 0 lot.toNat = (0 : Half) ++ lot := by simpa using field_lowHalf lot.isLt
  rw [Record.words, markWords, markWord_kind h, hlot]

theorem Record.words_event (k : EventKind) (row argument : Word) : (Record.event k row argument).words =
    [(0 : Half) ++ k.bits ++ (4 : Byte), row, argument] ++ List.replicate 13 0 := by
  rw [Record.words, eventWords, eventWord_kind]

end Sys2Proof.Machine

/-! ## The record ring: a COMMIT that changes it -/

namespace Sys2Proof.Machine

section RingChange

variable (p : Part)

/-- A drop after another adds to the count (R187). -/
theorem Part.dropRecords_recorder (rs : List Record) : (rs.foldl Part.dropRecord p).recorder =
    { p.recorder with dropped := p.recorder.dropped + BitVec.ofNat 32 rs.length } := by
  induction rs generalizing p with
  | nil => simp
  | cons r rs ih =>
    have hcount : p.recorder.dropped + 1 + BitVec.ofNat 32 rs.length =
        p.recorder.dropped + BitVec.ofNat 32 (rs.length + 1) := by
      rw [Nat.add_comm, BitVec.ofNat_add, BitVec.add_assoc]
      rfl
    rw [List.foldl_cons, ih, Part.dropRecord_recorder, List.length_cons, ← hcount]

theorem Part.abandonRecord_recorder : p.abandonRecord.recorder = { p.recorder with
    inProgress := none
    dropped := p.recorder.dropped + BitVec.ofNat 32 p.recorder.inProgress.toList.length } := by
  unfold Part.abandonRecord
  split
  · next o ho => simp [ho]
  · next hnone =>
    simp only [hnone, Option.toList_none, List.length_nil, BitVec.add_zero]
    rw [← hnone]

theorem Part.dropWaiting_recorder : p.dropWaiting.recorder = { p.recorder with
    outgoing := []
    dropped := p.recorder.dropped + BitVec.ofNat 32 p.recorder.outgoing.length } :=
  Part.dropRecords_recorder _ _

/-- R189: the record in progress is dropped, P and C are 0, and with the ring off the waiting records are dropped too. -/
theorem Part.ringChange_recorder : p.ringChange.recorder = { p.recorder with
    p := 0
    c := 0
    inProgress := none
    outgoing := if p.setup.unguarded.ringSize = 0 then [] else p.recorder.outgoing
    dropped := p.recorder.dropped + BitVec.ofNat 32 (p.recorder.inProgress.toList.length +
      if p.setup.unguarded.ringSize = 0 then p.recorder.outgoing.length else 0) } := by
  have hzero : p.abandonRecord.zeroRing.recorder = { p.abandonRecord.recorder with p := 0, c := 0 } := rfl
  have hsize : p.abandonRecord.zeroRing.setup = p.setup := p.abandonRecord_sameRows.setup
  unfold Part.ringChange
  dsimp only
  rw [hsize]
  by_cases hoff : p.setup.unguarded.ringSize = 0
  · simp only [if_pos hoff, Part.dropWaiting_recorder, hzero, Part.abandonRecord_recorder, BitVec.ofNat_add,
      BitVec.add_assoc]
  · simp only [if_neg hoff, hzero, Part.abandonRecord_recorder, Nat.add_zero]

theorem Part.wProducer_mem_ringChange : wProducer ∈ p.ringChange.dirty := by
  have hzero : wProducer ∈ p.abandonRecord.zeroRing.dirty := (mem_insertRising _ _ _).2 (.inl rfl)
  unfold Part.ringChange
  dsimp only
  split
  · exact (Part.Keeps.foldl (fun q r => q.keeps_dropRecord r) _
      { p.abandonRecord.zeroRing with recorder.outgoing := [] }).dirty hzero
  · exact hzero

end RingChange

/-! ### What the rest of a COMMIT leaves of the record writer and of the dirty set -/

section CommitRest

variable (p : Part)

/-- A change that leaves the record writer as it is and takes no word out of the dirty set. -/
structure Part.SparesRing (p q : Part) : Prop where
  recorder : q.recorder = p.recorder
  dirty : p.dirty ⊆ q.dirty

variable {p}

theorem Part.SparesRing.refl (p : Part) : p.SparesRing p := ⟨rfl, List.Subset.refl _⟩

theorem Part.SparesRing.trans {p q t : Part} (h : p.SparesRing q) (h' : q.SparesRing t) : p.SparesRing t :=
  ⟨h'.recorder.trans h.recorder, List.Subset.trans h.dirty h'.dirty⟩

theorem Part.SparesRing.of_keeps {q : Part} (hrecorder : q.recorder = p.recorder) (h : p.Keeps q) : p.SparesRing q :=
  ⟨hrecorder, h.dirty⟩

variable (p)

theorem Part.haltExpiry_sparesRing : p.SparesRing p.haltExpiry := by
  unfold Part.haltExpiry
  split
  · exact ⟨rfl, fun _ hx => (mem_insertRising _ _ _).2 (.inr hx)⟩
  · exact .refl p
  · exact .refl p

theorem Part.parkExpiry_sparesRing : p.SparesRing p.parkExpiry := by
  refine ⟨p.parkExpiry_recorder, ?_⟩
  by_cases h : p.belt.present = .halted
  · rw [Part.parkExpiry_of_halted h]
    exact List.Subset.trans (fun _ hx => (mem_insertRising _ _ _).2 (.inr hx)) p.beltParked.dirty_subset_parkOrder
  · rw [Part.parkExpiry_of_not_halted h]
    exact List.Subset.refl _

theorem Part.timersAfterCommit_sparesRing (oldHalt oldPark : Nat) : p.SparesRing (p.timersAfterCommit oldHalt oldPark) := by
  have hhalt : p.SparesRing (if p.haltLength ≠ oldHalt ∧ timerDue p.belt.halt p.haltLength then p.haltExpiry else p) := by
    split
    · exact p.haltExpiry_sparesRing
    · exact .refl p
  unfold Part.timersAfterCommit
  dsimp only
  generalize (if p.haltLength ≠ oldHalt ∧ timerDue p.belt.halt p.haltLength then p.haltExpiry else p) = q at hhalt ⊢
  split
  · exact hhalt.trans (Part.parkExpiry_sparesRing _)
  · exact hhalt

theorem Part.setSnapshot_sparesRing (x : Option Snapshot) : p.SparesRing (p.setSnapshot x) :=
  .of_keeps (by simp) (p.keeps_setSnapshot x)

theorem Part.commitGuarded_sparesRing (tag : Half) (g : Guarded) : p.SparesRing (p.commitGuarded tag g).2 := by
  unfold Part.commitGuarded
  split
  · exact p.setSnapshot_sparesRing none
  · split
    · exact (Part.SparesRing.of_keeps (by simp) (p.keeps_applyGuarded g)).trans (Part.setSnapshot_sparesRing _ none)
    · exact p.setSnapshot_sparesRing _

/-- Of a valid COMMIT the ring's own change alone touches the record writer (R189). -/
theorem Part.commit_sparesRing (tag : Half) (h : firstOutOfRange p.setup.staged = none) :
    p.beforeTimers.SparesRing (p.commit tag) := by
  rw [p.commit_valid tag h]
  refine .trans ?guarded ⟨Part.answer_recorder _ _ _ _, Part.answer_dirty_subset _ _ _ _⟩
  exact (Part.timersAfterCommit_sparesRing _ _ _).trans (Part.commitGuarded_sparesRing _ _ _)

theorem Part.beforeTimers_of_same_ring
    (hbase : (Unguarded.ofStaged p.setup.staged).ringBase = p.setup.unguarded.ringBase)
    (hsize : (Unguarded.ofStaged p.setup.staged).ringSize = p.setup.unguarded.ringSize) :
    p.beforeTimers = p.setUnguarded (Unguarded.ofStaged p.setup.staged) :=
  if_neg (not_or.2 ⟨not_not.2 hbase.symm, not_not.2 hsize.symm⟩)

theorem Part.beforeTimers_of_new_ring
    (h : (Unguarded.ofStaged p.setup.staged).ringBase ≠ p.setup.unguarded.ringBase ∨
      (Unguarded.ofStaged p.setup.staged).ringSize ≠ p.setup.unguarded.ringSize) :
    p.beforeTimers = (p.setUnguarded (Unguarded.ofStaged p.setup.staged)).ringChange :=
  if_pos (h.imp Ne.symm Ne.symm)

end CommitRest

end Sys2Proof.Machine

/-! ## The record writer -/

namespace Sys2Proof.Machine

/-! ### A record moves out (R188, R189) -/

section MoveOut

variable {p : Part} {r : Record} {rest : List Record}

theorem Recorder.full_iff (x : Recorder) (n : Nat) : x.full n = true ↔ (x.p + n - x.c) % n = n - 1 := decide_eq_true_iff

/-- Without a record in progress the front record is dropped, waits or moves out, by the ring. -/
theorem Part.moveOut_front (hidle : p.recorder.inProgress = none) (hfront : p.recorder.outgoing = r :: rest) :
    p.moveOut =
      if p.setup.unguarded.ringSize = 0 then ({ p with recorder.outgoing := rest } : Part).dropRecord r
      else if p.recorder.full p.setup.unguarded.ringSize then p
      else { p with recorder.outgoing := rest, recorder.inProgress := some { record := r, next := 0 } } := by
  unfold Part.moveOut
  rw [hidle, hfront]

theorem Part.moveOut_of_idle (h : p.recorder.inProgress.isSome = true ∨ p.recorder.outgoing = []) : p.moveOut = p := by
  unfold Part.moveOut
  split
  · next r rest hidle hfront => simp [hidle, hfront] at h
  · rfl

theorem exec_recordMoveOut_eq (s : State) : exec .recordMoveOut s = .next { s with part := s.part.moveOut } := rfl

end MoveOut

/-! ### The words and the producer index are handed in (R171, R188) -/

section HandIn

variable {s : State} {o : Outgoing}

theorem exec_recordWordHandIn_of_place (h : s.path.placesTaken < 16) :
    exec .recordWordHandIn s = .next s.postRecordWord :=
  congrArg Host.Outcome.next (if_pos (MemPath.hasPlace_iff.2 h))

theorem exec_producerIndexHandIn_of_place (h : s.path.placesTaken < 16) :
    exec .producerIndexHandIn s = .next s.postProducerIndex :=
  congrArg Host.Outcome.next (if_pos (MemPath.hasPlace_iff.2 h))

/-- Without a free place the record writer waits (R171). -/
theorem exec_handIn_of_full (h : 16 ≤ s.path.placesTaken) :
    exec .recordWordHandIn s = .next s ∧ exec .producerIndexHandIn s = .next s :=
  have hfull : ¬ s.path.hasPlace = true := MemPath.hasPlace_iff.not.2 h.not_gt
  ⟨congrArg Host.Outcome.next (if_neg hfull), congrArg Host.Outcome.next (if_neg hfull)⟩

theorem State.postRecord_eq_word (ho : s.part.recorder.inProgress = some o) (hn : o.next < 16) :
    s.postRecord = s.postRecordWord := by
  simp [State.postRecord, ho, hn]

theorem State.postRecord_eq_index (ho : s.part.recorder.inProgress = some o) (hn : 16 ≤ o.next) :
    s.postRecord = s.postProducerIndex := by
  simp [State.postRecord, ho, hn.not_gt]

end HandIn

/-! ### The consumer index (R186) -/

theorem Part.writeConsumer_of_no_lane (p : Part) (data : Word) : p.writeConsumer 0 data = p := if_pos rfl

theorem Part.writeConsumer_of_lanes (p : Part) {en : Lanes} (h : en ≠ 0) (data : Word) :
    let held : BitVec 11 := (mergeLanes (p.recorder.heldC.setWidth 32) data en).setWidth 11
    p.writeConsumer en data = { p with
      recorder.heldC := held
      recorder.c := if held.toNat < p.setup.unguarded.ringSize then held.toNat else p.recorder.c } := if_neg h

theorem exec_consumerIndexWrite_eq (en : Lanes) (data : Word) (s : State) :
    exec (.consumerIndexWrite en data) s = .next { s with part := s.part.writeConsumer en data } := rfl

/-- Settles O60: the words by their fields, a COMMIT by whether it changes the ring, and the record writer's moves by the
record in progress, the ring and the free places. -/
theorem recordWriter : Obligations.RecordWriter := by
  refine ⟨Record.words_length, ⟨?hide, ?lot, ?mark, ?event, ?headFault⟩, ?commit, fun s => ?writer⟩
  case hide =>
    intro x o strike source grade wheels outcome f hgrade hsymbols hmerges hmin hmax hfilled hlarge hbreached
    have hsource : source = x.source.bits := rfl
    have hgradeBits : grade = x.grade.bits := rfl
    have hwheels : wheels = wheelBits x.symbols := rfl
    have houtcome : outcome = o.bits := rfl
    rw [hsource, hgradeBits, hwheels, houtcome]
    exact Record.words_hide hgrade hsymbols hmerges hmin hmax hfilled hlarge hbreached
  case lot => exact fun l => Record.words_lot
  case mark => exact fun window data hitRow bound ambiguous lot h => Record.words_mark h data hitRow bound ambiguous lot
  case event => exact Record.words_event
  case headFault => exact headFaultArg_eq
  case commit =>
    intro tag s hvalid u old rec_
    have hspares := s.part.commit_sparesRing tag hvalid
    refine ⟨_, exec_commit_eq tag s, fun hbase hsize => ?same, fun hnew => ?changed⟩
    case same => rw [hspares.recorder, s.part.beforeTimers_of_same_ring hbase hsize]; rfl
    case changed =>
      have hring := s.part.beforeTimers_of_new_ring hnew
      refine ⟨hspares.dirty ?_, ?_⟩
      · rw [hring]; exact Part.wProducer_mem_ringChange _
      · rw [hspares.recorder, hring]; exact Part.ringChange_recorder _
  case writer =>
    refine ⟨fun r rest hidle hfront => ?front, fun h => ?idle, fun o ho hn hplace => ?word, fun o ho hn hplace => ?index,
      exec_handIn_of_full, fun en data => ?consumer⟩
    case front =>
      rw [exec_recordMoveOut_eq, Part.moveOut_front hidle hfront]
      refine ⟨fun hoff => by rw [if_pos hoff], fun hon hfull => ?_, fun hon hroom => ?_⟩
      · rw [if_neg hon, if_pos ((Recorder.full_iff _ _).2 hfull)]
      · rw [if_neg hon, if_neg ((Recorder.full_iff _ _).not.2 hroom)]
    case idle => rw [exec_recordMoveOut_eq, Part.moveOut_of_idle h]
    case word =>
      rw [exec_recordWordHandIn_of_place hplace, ← State.postRecord_eq_word ho hn, State.postRecord_of_word ho hn]
      rfl
    case index =>
      rw [exec_producerIndexHandIn_of_place hplace, ← State.postRecord_eq_index ho hn, State.postRecord_of_index ho hn,
        field_zero_ofNat]
      rfl
    case consumer =>
      intro held
      rw [exec_consumerIndexWrite_eq]
      by_cases hen : en = 0
      · rw [if_pos hen, hen, Part.writeConsumer_of_no_lane]
      · rw [if_neg hen, s.part.writeConsumer_of_lanes hen]

end Sys2Proof.Machine

/-! ## Every command is answered, and those inside the part leave the memory path -/

namespace Sys2Proof.Machine

/-- A command that acts inside the part alone is one operation of the part, refused where its operands spell nothing
(log entry 25). -/
theorem exec_partOnly_eq_ite {i : Instr} (h : partOnly i = true) :
    ∃ f, ∀ s, exec i s = if i.wellFormed then .next (s.onPart f) else .refused .illFormed := by
  cases i with
  | powerOnReset | upstreamTransaction | postedWordWrite | partWordComplete | recordWordHandIn | producerIndexHandIn
  | statusWordPost => cases h
  | setupWordWrite word en data =>
    exact ⟨fun p => p.setupBeat word.toNat en data, fun s => by simp [Instr.wellFormed, execSetupWordWrite]⟩
  | statusBlockWrite word =>
    exact ⟨fun p => p.statusBlockBeat word.toNat, fun s => by simp [Instr.wellFormed, execStatusBlockWrite]⟩
  | unknownCommand code tag => exact ⟨_, fun _ => rfl⟩
  | _ => exact ⟨_, fun _ => (if_pos rfl).symm⟩

theorem State.ifPlace_pending {s t : State} (h : t.pending = s.pending) :
    (if s.path.hasPlace then t else s).pending = s.pending := by
  split
  · exact h
  · rfl

/-- Every command has a state that it answers with when its operands are in range; the queue of commands is no command's. -/
theorem exec_eq_ite (i : Instr) (s : State) :
    ∃ t, t.pending = s.pending ∧ exec i s = if i.wellFormed then .next t else .refused .illFormed := by
  cases hpart : partOnly i with
  | true =>
    obtain ⟨f, he⟩ := exec_partOnly_eq_ite hpart
    exact ⟨s.onPart f, s.onPart_pending f, he s⟩
  | false =>
    cases i with
    | powerOnReset straps => exact ⟨s.powerOn straps, s.powerOn_pending straps, rfl⟩
    | upstreamTransaction request pause => exact ⟨s.upstream request pause, s.upstream_pending request pause, rfl⟩
    | postedWordWrite => exact ⟨s.startPartWord, s.startPartWord_pending, rfl⟩
    | partWordComplete => exact ⟨s.completePartWord, s.completePartWord_pending, rfl⟩
    | recordWordHandIn => exact ⟨_, State.ifPlace_pending s.postRecordWord_pending, rfl⟩
    | producerIndexHandIn => exact ⟨_, State.ifPlace_pending s.postProducerIndex_pending, rfl⟩
    | statusWordPost => exact ⟨_, State.ifPlace_pending s.postStatus_pending, rfl⟩
    | _ => cases hpart

/-- Settles O3, by the one state that each command answers with (`exec_eq_ite`). -/
theorem wellFormedCommandsComplete : Obligations.WellFormedCommandsComplete := by
  intro i s
  obtain ⟨t, hpending, he⟩ := exec_eq_ite i s
  refine ⟨fun h => ⟨t, ?_, hpending⟩, fun h => ?_⟩
  · rw [he, if_pos h]
  · rw [he, if_neg (Bool.not_eq_true _ ▸ h)]

/-- Settles O4: such a command is an operation of the part (`exec_partOnly_eq_ite`), and the RAM is the path's. -/
theorem partCommandsLeaveThePath : Obligations.PartCommandsLeaveThePath := by
  intro i s hwf hpart
  obtain ⟨f, he⟩ := exec_partOnly_eq_ite hpart
  have hpath := s.onPart_path f
  exact ⟨s.onPart f, by rw [he, if_pos hwf], hpath, s.onPart_pending f, fun a => by rw [hpath]⟩

end Sys2Proof.Machine

/-! ## A pass run in parts -/

namespace Sys2Proof.Machine

section InParts

variable (p : Part)

variable {p} in
theorem Part.finishPass_none (h : p.tracker.pass = none) : p.finishPass = p := by
  unfold Part.finishPass
  rw [h]

/-- The rest of a pass is its next unit of work and then the rest: each stage runs on from where its unit leaves the pass, and the
exchange leaves none in progress. -/
theorem Part.finishPass_passUnit : p.passUnit.finishPass = p.finishPass := by
  cases h : p.tracker.pass with
  | none =>
    have hunit : p.passUnit = p := by unfold Part.passUnit; rw [h]
    rw [hunit]
  | some pass =>
    obtain ⟨r, st⟩ := pass
    have hover := Part.finishPass_none p.exchangeLists_pass
    simp only [Part.passUnit, Part.finishPass, h]
    cases st with
    | exchange => exact hover
    | truncating os => cases os <;> rfl
    | ownership gs => cases gs <;> rfl
    | gaps gs => cases gs <;> rfl
    | closing os => cases os <;> rfl
    | segmentation | accumulation | closingCheck | sites => rfl

theorem Part.finishPass_passUnits (n : Nat) : (p.passUnits n).finishPass = p.finishPass := by
  induction n generalizing p with
  | zero => rfl
  | succ n ih => exact (ih p.passUnit).trans p.finishPass_passUnit

/-- A whole pass is so many units of it and then the rest, which is nothing when the units ended it. -/
theorem Part.finishPass_rowPass (n : Nat) : (p.rowPass (some n)).finishPass = p.rowPass none := Part.finishPass_passUnits _ n

end InParts

/-- Settles O8: the pass goes on from where it stands (`Part.rowPass_in_pass`), or nothing is left of it. -/
theorem resumedPassIsTheWholePass : Obligations.ResumedPassIsTheWholePass := by
  intro s t n he
  obtain rfl : { s with part := s.part.rowPass (some n) } = t := Host.Outcome.next.inj he
  have hwhole := s.part.finishPass_rowPass n
  refine ⟨fun hin => ?_, fun hover => ?_⟩
  · rw [exec_rowPass_eq, exec_rowPass_eq, Part.rowPass_in_pass hin, hwhole]
  · rw [exec_rowPass_eq, ← hwhole, Part.finishPass_none hover]

end Sys2Proof.Machine

/-! ## A step: the front command, or a microsecond -/

namespace Sys2Proof.Machine

/-- Settles O1, by what a step is on a queue with a front (`step_cons`). -/
theorem stepRunsTheFrontCommand : Obligations.StepRunsTheFrontCommand :=
  fun c s => step_cons { s with pending := c :: s.pending } c s.pending rfl

section Microsecond

variable (p : Part)

/-- The part whose running timers have counted a microsecond (R152). -/
def Part.timersCounted : Part :=
  { p with belt.halt := p.belt.halt.map (· + 1), belt.park := p.belt.park.map (· + 1) }

/-- A microsecond is the count and then the expiry of a timer that has come to its length. -/
theorem Part.tick_eq : p.tick =
    if timerDue (p.belt.halt.map (· + 1)) p.haltLength then p.timersCounted.haltExpiry
    else if timerDue (p.belt.park.map (· + 1)) p.parkLength then p.timersCounted.parkExpiry
    else p.timersCounted := rfl

variable {p}

theorem Part.tick_of_none_due (hhalt : timerDue (p.belt.halt.map (· + 1)) p.haltLength = false)
    (hpark : timerDue (p.belt.park.map (· + 1)) p.parkLength = false) : p.tick = p.timersCounted := by
  rw [Part.tick_eq, hhalt, hpark]
  rfl

/-- R156: the halt timer comes to its length in RUNNING. -/
theorem Part.tick_halts {e : Nat} (hhalt : p.belt.halt = some e) (hrun : p.belt.present = .running)
    (hle : p.haltLength ≤ e + 1) : p.tick = p.timersCounted.beltHalted := by
  have hdue : timerDue (p.belt.halt.map (· + 1)) p.haltLength = true := by
    rw [hhalt]; exact (timerDue_some _ _).2 hle
  rw [Part.tick_eq, if_pos hdue, Part.haltExpiry_of_running (p := p.timersCounted) hrun]

/-- R157: the park timer comes to its length in HALTED, where the halt timer is stopped. -/
theorem Part.tick_parks {e : Nat} (hpark : p.belt.park = some e) (hhalt : p.belt.halt = none)
    (hle : p.parkLength ≤ e + 1) : p.tick = p.timersCounted.parkExpiry := by
  have hstopped : ¬ timerDue (p.belt.halt.map (· + 1)) p.haltLength = true := by
    rw [hhalt]; simp [timerDue]
  have hdue : timerDue (p.belt.park.map (· + 1)) p.parkLength = true := by
    rw [hpark]; exact (timerDue_some _ _).2 hle
  rw [Part.tick_eq, if_neg hstopped, if_pos hdue]

theorem Part.timersCounted_parked (hhalt : p.belt.halt = none) :
    p.timersCounted.belt.parked = { present := .parked, last := some .halted, halt := none, park := none } := by
  simp [Part.timersCounted, Belt.parked, hhalt]

end Microsecond

/-- Settles O2: a step with nothing waiting is a microsecond (`step_nil`), by the timer that comes to its length. -/
theorem idleStepCountsTime : Obligations.IdleStepCountsTime := by
  intro s hidle
  rw [step_nil s hidle]
  refine ⟨fun hhalt hpark => ?counts, fun e hhalt hrun hle => ⟨_, rfl, ?halts⟩,
    fun e hpark hhalted hhalt hle => ⟨_, rfl, ?parks⟩⟩
  case counts => rw [Part.tick_of_none_due hhalt hpark]; rfl
  case halts => exact congrArg Part.belt (Part.tick_halts hhalt hrun hle)
  case parks =>
    have hexpired : s.part.timersCounted.parkExpiry.belt = s.part.timersCounted.belt.parked := Part.parkExpiry_belt hhalted
    exact (congrArg Part.belt (Part.tick_parks hpark hhalt hle)).trans (hexpired.trans (Part.timersCounted_parked hhalt))

end Sys2Proof.Machine
